-- ==== Sys2Proof/Word.lean ====
section
/-! DEFINITION. The words of the engine: bytes, byte strings, vector lanes (R6, R59). -/

namespace Sys2Proof

/-- One byte of any memory, register, link or file format. -/
abbrev Byte := BitVec 8

/-- A byte string in ascending address order, little-endian for multi-byte values (R6). -/
abbrev Bytes := List Byte

/-- A 32-bit lane or register word. -/
abbrev W32 := BitVec 32

/-- A 64-bit word. -/
abbrev W64 := BitVec 64

/-- A 128-bit word: a digest, an ECC granule. -/
abbrev W128 := BitVec 128

/-- The 32 lanes of a vector register, lane 0 first (R59). -/
abbrev Lanes := List W32

/-- A sparse table: key and value pairs, keys strictly rising, no value equal to what an unlisted key reads as. -/
abbrev Tab (α : Type) := List (Nat × α)

/-- A sparse byte memory in the same form (R6); an unlisted address reads as the memory's own default. -/
abbrev Mem := Tab Byte

end Sys2Proof
end

