-- ==== Sys2Proof/Syntax.lean ====
section
/-! DEFINITION. The commands of the engine: one constructor per row of spec/opcode_table.json, in the table's
order, with the operands the row's rules give it. The spec gives the rows no bits. Log entry 10 says how the
operands were chosen: an instruction carries its place and its encoded fields, a mailbox command its input
payload (R340), a received frame or flit its bytes, an event of the outside world what it reports. -/

namespace Sys2Proof

/-- The two scalar cores of a cluster (R25). -/
inductive Sc where
  | s0 | s1
deriving DecidableEq, Repr

/-- A mesh direction (R26, R131). -/
inductive Dir where
  | north | east | south | west
deriving DecidableEq, Repr

/-- The two 56 V feeds (R381). -/
inductive Feed where
  | a | b
deriving DecidableEq, Repr

/-- The thermal sensors of R386, one constructor per row, with the sensor's number where there are several. -/
inductive Sensor where
  | junction (field i : Nat)
  | stack (n : Nat)
  | ringDie (k : Nat)
  | hub
  | supply (field : Nat)
  | coolant (i : Nat)
deriving DecidableEq, Repr

/-- The units that a detector or checker of the engine guards (R395, R406; log entry 100). -/
inductive Guarded where
  | clusterMemory (c : Nat)
  | router (c : Nat)
  | scoreboard (c : Nat)
  | weirNet
  | sluices (d : Nat)
  | queues (d : Nat)
  | credits (p : Nat)
  | stack (n : Nat)
  | quota
  | hub
deriving DecidableEq, Repr

/-- What reports nothing that can be trusted (R395): a sensor without a reading, or a detector or checker with an internal
parity error. -/
inductive Mute where
  | sensor (k : Sensor)
  | detector (u : Guarded)
deriving DecidableEq, Repr

/-- What a sensor reported: a temperature in 0.25 °C (R393). -/
structure Reading where
  sensor : Sensor
  quarter : Int
deriving DecidableEq, Repr

/-- A vector memory address field, X of LD, ST, GST and DREAD (R129). -/
structure VAddr where
  addr : BitVec 20
  width : BitVec 3
  step : BitVec 10
deriving DecidableEq, Repr

/-- A mesh flit: 32 data bytes as one value, byte i in bits [8i+7:8i], and the sideband word (R134). -/
structure Flit where
  data : BitVec 256
  side : BitVec 32
deriving DecidableEq, Repr

/-- A flit as it leaves a crossing, and whether the crossing's write-to-read margin was below 0.1 lc (R375). -/
structure Crossing where
  flit : Flit
  lowMargin : Bool
deriving DecidableEq, Repr

/-- The flash pins of the management connector: FLASH_PGM_N asserted, FLASH_VCC applied (R428, R430). -/
structure FlashPins where
  pgm : Bool
  vcc : Bool
deriving DecidableEq, Repr

/-- A gated link (R147, R189): a ring die's port block or a stack field, and the column of the link. -/
structure GateId where
  stackGate : Bool
  site : Nat
  link : Nat
deriving DecidableEq, Repr

/-- What the channel and the partner of the host port sustain: lanes, rate in GT/s, and 256-byte flits at 32 GT/s (R322). -/
structure Channel where
  lanes : Nat
  rate : Nat
  flits256 : Bool
deriving DecidableEq, Repr

/-- What the physical steps of a cold start find (R350 to R353, R374, R384). The steps whose outcome the
engine computes (key chain, policy, defect map, merge) are not here. -/
structure ColdOutcome where
  /-- A failure that the hardware itself reports, as its START_CAUSE (R351); the checks the engine computes
  are made besides. -/
  fail : Option (BitVec 16)
  /-- The field whose PLL does not lock, where START_CAUSE is 0x0501, and the stack whose PHY fails its training, where it is
  0x0901 (R351). -/
  failField : Fin 94
  failStack : Fin 16
  /-- The secret R of R354 step 2, 32 bytes. -/
  puf : Bytes
  /-- What the host port finds once PERST_N is released; no lanes where it stays asserted (R322). -/
  channel : Channel
  /-- Crossings whose margin cannot be centred, by driving cluster and direction (R374). -/
  badCross : List (Nat × Dir)
  /-- Per field, the last passing voltage in mV; none where a monitor fails already at 0.78 V (R384). -/
  vmin : List (Option Nat)
  /-- Clusters whose verdict is missing, fails its CRC or reports a failed local phase (R353 step 1). -/
  noVerdict : List Nat
  /-- Bad votes: voter, target (R353). -/
  votes : List (Nat × Nat)
  /-- Lane faults found by the link phase, in the form of R26. -/
  lanes : List (BitVec 32)
deriving DecidableEq, Repr

/-- What the link check and the field repowering of a warm start find (R359, R375, R392). -/
structure WarmOutcome where
  lanes : List (BitVec 32)
  badMargin : List (Nat × Dir)
  /-- Fields whose supply trips again (R392). -/
  stillOff : List Nat
deriving DecidableEq, Repr

/-- The IDE streams of R324: the selective stream on CXL.io, and CXL.cachemem IDE on the link in containment mode. -/
inductive IdeStream where
  | selective | cachemem
deriving DecidableEq, Repr

/-- Where a register write goes: an offset in configuration space or in BAR0 (R325, R328). -/
inductive RegPlace where
  | config (off : Nat)
  | bar0 (off : Nat)
deriving DecidableEq, Repr

/-- An offset in the log that a log identifier of CXL names: the command effects log, or any other (R337). -/
inductive LogPlace where
  | effects (off : Nat)
  | other (off : Nat)
deriving DecidableEq, Repr

/-- The SPDM 1.2 requests that change the engine's state (R363, R324); every other request is answered only. -/
inductive Spdm where
  | plain (code : Byte)
  | finish (good : Bool)
  | endSession
  | ideKey (stream : IdeStream)
  | ideGo (stream : IdeStream)
  | ideStop (stream : IdeStream)
deriving DecidableEq, Repr

/-- How a field supply faults (R389). -/
inductive SupplyHow where
  | overCurrent | outOfRegulation | overheat
deriving DecidableEq, Repr

/-- The commands. `c` is a cluster number (R21), `k` a scalar core, `v` a vector core 0–5, `p` a port, `d` a ring
die; `pl` is a mailbox input payload. -/
inductive Instr where
  -- power, pins, clocks, sensors
  | coldStart (o : ColdOutcome)
  | powerDown
  | feedLoss (f : Feed) (mv : Nat)
  | feedConnect (f : Feed) (mv : Nat)
  | feedOvervoltage (f : Feed) (mv : Nat)
  | feedUndervoltage (mvA mvB : Nat)
  | powerRemoval (mvA mvB : Nat)
  | flashPgmN (pins : FlashPins) (prog : List (Nat × Bytes)) (o : ColdOutcome)
  | hallReferenceChange (present inTolerance : Bool)
  | htimeFrame (bits : BitVec 96) (codeOk : Bool)
  | htimeTimeout
  | sensorSample (rs : List Reading)
  | sensorSilent (m : Mute)
  | supplyFault (field : Nat) (how : SupplyHow)
  | watchdog
  | cableInsert (p : Nat)
  | cableRemoval (p : Nat)
  | perstNRelease (channel : Channel)
  | hotReset
  | functionLevelReset
  | hostLinkLoss
  | hdmCommit (ways : Nat) (hdmH : Bool)
  | spdmMessage (m : Spdm)
  | hdmRead (off len : Nat)
  | hdmWrite (off : Nat) (data : Bytes)
  -- register accesses
  | hold (v : Bool)
  | relayDis (v : Bool)
  | gearReqClear (v : Bool)
  | gearDropClear (v : Bool)
  | frameErrRead
  | regWrite (place : RegPlace) (value : W64)
  -- standard mailbox commands
  | identify
  | backgroundOperationStatus
  | getEventRecords
  | clearEventRecords
  | getTimestamp
  | setTimestamp (t : W64)
  | getSupportedLogs
  | getLog (place : LogPlace) (len : Nat)
  | identifyMemoryDevice
  | unsupported (opcode : BitVec 16)
  -- vendor mailbox commands
  | mapRead
  | load (pl : Bytes)
  | verify
  | verifyDone
  | configure
  | configureDone
  | relief (pl : Bytes)
  | reliefDone
  | run (pl : Bytes)
  | weirRelease (pl : Bytes)
  | freeze
  | warmStart (pl : Bytes)
  | contWarm
  | warmStartDone (o : WarmOutcome)
  | readback (pl : Bytes)
  | readbackDone
  | attest (pl : Bytes)
  | attestDone
  | setIdentity (pl : Bytes)
  | lend (pl : Bytes)
  | endLend
  | scrubComplete
  | shadowGuard (pl : Bytes)
  | setQuota (pl : Bytes)
  | migPost (pl : Bytes)
  | migStatus (pl : Bytes)
  | tqPost (pl : Bytes)
  | sluiceOpen (pl : Bytes)
  | sluiceClose (pl : Bytes)
  | keyLoad (pl : Bytes)
  | portReset (pl : Bytes)
  | timeOffsetSet (pl : Bytes)
  | logRead (pl : Bytes)
  | bgResult
  -- scalar instructions (R112 to R121)
  | alu (c : Nat) (k : Sc) (rd rs1 rs2 : BitVec 5) (fn : BitVec 11)
  | addi (c : Nat) (k : Sc) (rd rs1 : BitVec 5) (imm : BitVec 16)
  | andi (c : Nat) (k : Sc) (rd rs1 : BitVec 5) (imm : BitVec 16)
  | ori (c : Nat) (k : Sc) (rd rs1 : BitVec 5) (imm : BitVec 16)
  | xori (c : Nat) (k : Sc) (rd rs1 : BitVec 5) (imm : BitVec 16)
  | shi (c : Nat) (k : Sc) (rd rs1 : BitVec 5) (imm : BitVec 16)
  | movk (c : Nat) (k : Sc) (rd : BitVec 5) (q : BitVec 2) (imm : BitVec 16)
  | beq (c : Nat) (k : Sc) (rs1 rs2 : BitVec 5) (off : BitVec 16)
  | bne (c : Nat) (k : Sc) (rs1 rs2 : BitVec 5) (off : BitVec 16)
  | blt (c : Nat) (k : Sc) (rs1 rs2 : BitVec 5) (off : BitVec 16)
  | bge (c : Nat) (k : Sc) (rs1 rs2 : BitVec 5) (off : BitVec 16)
  | bltu (c : Nat) (k : Sc) (rs1 rs2 : BitVec 5) (off : BitVec 16)
  | bgeu (c : Nat) (k : Sc) (rs1 rs2 : BitVec 5) (off : BitVec 16)
  | jmp (c : Nat) (k : Sc) (off : BitVec 26)
  | call (c : Nat) (k : Sc) (off : BitVec 26)
  | ret (c : Nat) (k : Sc)
  | loop (c : Nat) (k : Sc) (rs : BitVec 5) (len : BitVec 10)
  | wait (c : Nat) (k : Sc) (imm : BitVec 20)
  | waitr (c : Nat) (k : Sc) (rs : BitVec 5)
  | mop (c : Nat) (core : BitVec 4) (idx : BitVec 11) (sub : Bool) (areg : BitVec 3)
  | vstart (c : Nat) (vc : BitVec 3) (vaddr : BitVec 13)
  | s1start (c : Nat) (saddr : BitVec 14)
  | weir (c : Nat) (w : BitVec 16) (rly sent : Bool)
  | stop (c : Nat)
  | lda (c : Nat) (rd : BitVec 5) (aBase : Bool) (rb : BitVec 5) (raw half : Bool) (off : BitVec 13)
  | stn (c : Nat) (rs : BitVec 5) (aBase : Bool) (rb : BitVec 5) (off : BitVec 13)
  | aop (c : Nat) (ad as_ fn : BitVec 3) (imm : BitVec 16)
  | mova (c : Nat) (ad : BitVec 3) (rs : BitVec 5)
  | tload (c : Nat) (vc : BitVec 3) (deriv aBase : Bool) (rb : BitVec 5)
  | gload (c : Nat) (vc : BitVec 3) (aBase : Bool) (rb : BitVec 5)
  | s1End (c : Nat)
  -- vector instructions (R126 to R129)
  | fadd (c v : Nat) (vd va vb : BitVec 5) (m : BitVec 3)
  | fsub (c v : Nat) (vd va vb : BitVec 5) (m : BitVec 3)
  | fmul (c v : Nat) (vd va vb : BitVec 5) (m : BitVec 3)
  | fma (c v : Nat) (vd va vb vc : BitVec 5) (m : BitVec 3)
  | fms (c v : Nat) (vd va vb vc : BitVec 5) (m : BitVec 3)
  | fnma (c v : Nat) (vd va vb vc : BitVec 5) (m : BitVec 3)
  | fnms (c v : Nat) (vd va vb vc : BitVec 5) (m : BitVec 3)
  | fmin (c v : Nat) (vd va vb : BitVec 5) (m : BitVec 3)
  | fmax (c v : Nat) (vd va vb : BitVec 5) (m : BitVec 3)
  | fabs (c v : Nat) (vd va : BitVec 5) (m : BitVec 3)
  | fneg (c v : Nat) (vd va : BitVec 5) (m : BitVec 3)
  | fcmp (c v : Nat) (vd va vb : BitVec 5) (m : BitVec 3) (fn : BitVec 8)
  | sel (c v : Nat) (vd va vb vc : BitVec 5) (m : BitVec 3)
  | iadd (c v : Nat) (vd va vb : BitVec 5) (m : BitVec 3)
  | isub (c v : Nat) (vd va vb : BitVec 5) (m : BitVec 3)
  | iand (c v : Nat) (vd va vb : BitVec 5) (m : BitVec 3)
  | ior (c v : Nat) (vd va vb : BitVec 5) (m : BitVec 3)
  | ixor (c v : Nat) (vd va vb : BitVec 5) (m : BitVec 3)
  | ishl (c v : Nat) (vd va vb : BitVec 5) (m : BitVec 3)
  | ishr (c v : Nat) (vd va vb : BitVec 5) (m : BitVec 3)
  | isar (c v : Nat) (vd va vb : BitVec 5) (m : BitVec 3)
  | icmp (c v : Nat) (vd va vb : BitVec 5) (m : BitVec 3) (fn : BitVec 8)
  | wadd (c v : Nat) (vd va vb : BitVec 5) (m : BitVec 3)
  | wsub (c v : Nat) (vd va vb : BitVec 5) (m : BitVec 3)
  | bcast (c v : Nat) (vd va : BitVec 5) (m : BitVec 3) (fn : BitVec 8)
  | perm (c v : Nat) (vd va : BitVec 5) (m : BitVec 3) (fn : BitVec 8)
  | unpk (c v : Nat) (vd va : BitVec 5) (m : BitVec 3) (fn : BitVec 8)
  | rsum (c v : Nat) (vd va : BitVec 5) (m : BitVec 3)
  | rmin (c v : Nat) (vd va : BitVec 5) (m : BitVec 3)
  | rmax (c v : Nat) (vd va : BitVec 5) (m : BitVec 3)
  | teval (c v : Nat) (vd va : BitVec 5) (m : BitVec 3) (fn : BitVec 8)
  | tgrad (c v : Nat) (vd va vb : BitVec 5) (m : BitVec 3) (fn : BitVec 8)
  | cvt (c v : Nat) (vd va : BitVec 5) (m : BitVec 3) (src dst : BitVec 4) (rm : BitVec 2)
  | cvtmx (c v : Nat) (vd va vc : BitVec 5) (m : BitVec 3) (dst : BitVec 4) (rm : BitVec 2)
  | cvtxf (c v : Nat) (vd va vb : BitVec 5) (m : BitVec 3) (src : BitVec 4)
  | cvtg (c v : Nat) (vd va vb : BitVec 5) (m : BitVec 3)
  | cvts (c v : Nat) (vd va : BitVec 5) (m : BitVec 3)
  | cvtsf (c v : Nat) (vd va : BitVec 5) (m : BitVec 3)
  | scnt (c v : Nat) (vd va vb vc sreg : BitVec 5) (m : BitVec 3)
  | dbegin (c v : Nat) (va : BitVec 5)
  | dfold (c v : Nat) (va : BitVec 5)
  | dfoldt (c v : Nat) (va : BitVec 5) (cnt : BitVec 4)
  | dend (c v : Nat)
  | dread (c v : Nat) (x : VAddr)
  | dclr (c v : Nat)
  | gst (c v : Nat) (x : VAddr)
  | gdraw (c v : Nat) (vd : BitVec 5) (m : BitVec 3) (adv : Bool)
  | gdrawi (c v : Nat) (vd va : BitVec 5) (m : BitVec 3)
  | ld (c v : Nat) (vd : BitVec 5) (m : BitVec 3) (x : VAddr)
  | st (c v : Nat) (va : BitVec 5) (x : VAddr)
  | pop (c v : Nat) (vd : BitVec 5) (m : BitVec 3) (half : Bool)
  | push (c v : Nat) (va : BitVec 5)
  | li (c v : Nat) (vd : BitVec 5) (m : BitVec 3) (imm : W32)
  | rep (c v : Nat) (len : BitVec 4) (n : BitVec 16)
  | vectorEnd (c v : Nat)
  -- mesh
  | flit (c : Nat) (inp : Dir) (f : Crossing)
  | landingWrite (c : Nat)
  | gateInject (g : GateId)
  | gateExtract (g : GateId)
  -- weirs
  | arrive (c : Nat) (w : Nat)
  | landed (c : Nat) (w : Nat)
  | conditionLatch (deferred : Bool) (i : Nat)
  | release
  | sluiceDrained (d i : Nat)
  | resume
  | sentinelRoutine (c : Nat) (hash : W128)
  | relayEligible
  | relayChoice
  | digestRead (i : Nat)
  | weirDeadline
  | runEnd
  -- ports
  | pcsLock (p : Nat)
  | linkInit (p : Nat) (frame : Bytes)
  | portFlit (p : Nat) (bytes : Bytes) (badCodeword : Bool)
  | replayTimeout (p ch : Nat)
  | retrainComplete (p : Nat)
  | portDown (p : Nat)
  | auditSend (p lane : Nat)
  | audit (p : Nat) (frame : Bytes)
  | cease (p : Nat) (frame : Bytes)
  -- frames
  | marker (p : Nat) (frame : Bytes)
  | digest (p : Nat) (frame : Bytes)
  | commitAck (p : Nat) (frame : Bytes)
  | tile (p vl : Nat) (frame : Bytes)
  | landingBufferReserve (d : Nat)
  | shardReq (p vl : Nat) (frame : Bytes)
  | homeRead (p vl : Nat) (frame : Bytes)
  | homeWrite (p vl : Nat) (frame : Bytes)
  | homeData (p vl : Nat) (frame : Bytes)
  | shardCheck (d : Nat)
  -- transfer queues
  | descriptorStart (q : Nat)
  | descriptorComplete (q : Nat) (tag : W32)
  | timeout (q : Nat) (tag : W32)
  -- tier engine
  | fetch (host : Bool) (home : Option Bytes)
  | evict (host acked : Bool)
  | writeback (host acked : Bool)
  | drop (host : Bool)
  | alloc (host : Bool)
  | move (host : Bool)
  | bind (host : Bool)
  | unbind (host : Bool)
  | stagingRead (stack list : Nat)
  | store (stack list : Nat)
  | addF32 (stack list : Nat)
  | addI64 (stack list : Nat)
  | busOrHubSupplyFault
  | thermalHistoryRecord
deriving DecidableEq, Repr

end Sys2Proof
end

