-- ==== Sys2Proof/Machine/Table.lean ====
section
/-! DEFINITION. Sparse tables and byte memories in one canonical form: keys strictly rising, no entry equal to the
default an unlisted key reads as. Every memory and register file of the engine is one of these. -/

namespace Sys2Proof

/-- The value at a key; the default where nothing is listed. -/
def Tab.get {α : Type} (d : α) : Tab α → Nat → α
  | [], _ => d
  | (k', v) :: t, k => if k' = k then v else Tab.get d t k

/-- Put a value at a key, in key order, listing nothing that equals the default. -/
def Tab.set {α : Type} [DecidableEq α] (d : α) : Tab α → Nat → α → Tab α
  | [], k, v => if v = d then [] else [(k, v)]
  | (k', w) :: t, k, v =>
    if k < k' then (if v = d then (k', w) :: t else (k, v) :: (k', w) :: t)
    else if k = k' then (if v = d then t else (k, v) :: t)
    else (k', w) :: Tab.set d t k v

/-- Apply a function to the value at a key. -/
def Tab.upd {α : Type} [DecidableEq α] (d : α) (t : Tab α) (k : Nat) (f : α → α) : Tab α :=
  t.set d k (f (t.get d k))

/-- The canonical form: every key above `lo`, rising, and no value equal to the default. -/
def Tab.wfFrom {α : Type} [DecidableEq α] (d : α) : Nat → Tab α → Bool
  | _, [] => true
  | lo, (k, v) :: t => decide (lo ≤ k) && decide (v ≠ d) && Tab.wfFrom d (k + 1) t

/-- The canonical form of a table. -/
def Tab.wf {α : Type} [DecidableEq α] (d : α) (t : Tab α) : Bool := Tab.wfFrom d 0 t

/-- Write consecutive bytes from an address upward. -/
def Mem.write (d : Byte) (m : Mem) (a : Nat) : Bytes → Mem
  | [] => m
  | b :: bs => Mem.write d (Tab.set d m a b) (a + 1) bs

/-- Read `n` consecutive bytes from an address upward. -/
def Mem.read (d : Byte) (m : Mem) (a : Nat) : Nat → Bytes
  | 0 => []
  | n + 1 => Tab.get d m a :: Mem.read d m (a + 1) n

/-- `n` bytes from an address on of a memory whose entries below the address have been dropped. -/
def Mem.walk (d : Byte) : Mem → Nat → Nat → Bytes
  | _, _, 0 => []
  | [], a, n + 1 => d :: Mem.walk d [] (a + 1) n
  | (k, v) :: t, a, n + 1 => if k = a then v :: Mem.walk d t (a + 1) n else d :: Mem.walk d ((k, v) :: t) (a + 1) n

/-- Read `n` consecutive bytes of a memory in canonical form in one pass over it. -/
def Mem.span (d : Byte) (m : Mem) (a n : Nat) : Bytes := Mem.walk d (m.dropWhile (fun e => e.1 < a)) a n

/-- The entries of a table outside a range of keys; what remains when the range returns to its default. -/
def Tab.clearRange {α : Type} (t : Tab α) (lo hi : Nat) : Tab α :=
  t.filter (fun e => e.1 < lo || hi ≤ e.1)

/-- Apply a function to every listed value; what becomes the default is no longer listed. -/
def Tab.mapVals {α : Type} [DecidableEq α] (d : α) (f : Nat → α → α) : Tab α → Tab α
  | [] => []
  | (k, v) :: t => if f k v = d then Tab.mapVals d f t else (k, f k v) :: Tab.mapVals d f t

end Sys2Proof
end

