-- ==== Sys2Proof/Machine/Bits.lean ====
section
/-! DEFINITION. Bit fields, byte order, sign extension and saturating counters (R6, R52). -/

namespace Sys2Proof

/-- Bits [hi:lo] of a number. -/
def bits (x hi lo : Nat) : Nat := x / 2 ^ lo % 2 ^ (hi - lo + 1)

/-- Bit i of a number. -/
def bit (x i : Nat) : Bool := x / 2 ^ i % 2 == 1

/-- One when true. -/
def b2n (b : Bool) : Nat := if b then 1 else 0

/-- The number a byte string spells, little-endian (R6). -/
def leNat : Bytes → Nat
  | [] => 0
  | b :: bs => b.toNat + 256 * leNat bs

/-- `n` bytes of a number, little-endian (R6). -/
def toLe : Nat → Nat → Bytes
  | 0, _ => []
  | n + 1, x => BitVec.ofNat 8 x :: toLe n (x / 256)

/-- `n` bytes from an offset; bytes beyond the end read as zero (log entry 1). -/
def sliceB (bs : Bytes) (off n : Nat) : Bytes :=
  let t := (bs.drop off).take n
  t ++ List.replicate (n - t.length) 0

/-- The little-endian field of `n` bytes at an offset; bytes beyond the end read as zero (log entry 1). -/
def fieldB (bs : Bytes) (off n : Nat) : Nat := leNat ((bs.drop off).take n)

/-- Whether `n` bytes at an offset are all zero. -/
def zeroB (bs : Bytes) (off n : Nat) : Bool := ((bs.drop off).take n).all (· == 0)

/-- The bytes of an ASCII string (its character codes, one byte each). -/
def ascii (s : String) : Bytes := s.toList.map (fun c => BitVec.ofNat 8 c.toNat)

/-- `n` zero bytes. -/
def zeros (n : Nat) : Bytes := List.replicate n 0

/-- Pad with zeros to at least `n` bytes. -/
def padB (bs : Bytes) (n : Nat) : Bytes := bs ++ zeros (n - bs.length)

/-- The bytes of a 256-bit flit, byte i in bits [8i+7:8i] (R134). -/
def flitBytes (d : BitVec 256) : Bytes := toLe 32 d.toNat

/-- A flit's data from 32 bytes. -/
def flitOf (bs : Bytes) : BitVec 256 := BitVec.ofNat 256 (leNat bs)

/-- A counter that saturates at all ones (R52, R265). -/
def satAdd {w : Nat} (c : BitVec w) (n : Nat) : BitVec w :=
  if c.toNat + n < 2 ^ w then BitVec.ofNat w (c.toNat + n) else BitVec.allOnes w

/-- Two's-complement value of the low `w` bits of a number. -/
def sext (w x : Nat) : Int := (BitVec.ofNat w x).toInt

/-- Round a number up to a multiple. -/
def roundUp (x m : Nat) : Nat := (x + m - 1) / m * m

/-- ⌈log2⌉ of a positive number. -/
def clog2 (x : Nat) : Nat := if x ≤ 1 then 0 else Nat.log2 (x - 1) + 1

/-- Cut a byte string into pieces of `n` bytes; `fuel` bounds the number of pieces. -/
def chunksB (n : Nat) : Nat → Bytes → List Bytes
  | 0, _ => []
  | fuel + 1, bs => if bs.isEmpty then [] else bs.take n :: chunksB n fuel (bs.drop n)

/-- Insert a number in a rising list without repeats. -/
def insertNat (x : Nat) : List Nat → List Nat
  | [] => [x]
  | y :: ys => if x < y then x :: y :: ys else if x = y then y :: ys else y :: insertNat x ys

/-- Replace the element at an index. -/
def setAt {α : Type} : List α → Nat → α → List α
  | [], _, _ => []
  | _ :: xs, 0, a => a :: xs
  | x :: xs, n + 1, a => x :: setAt xs n a

/-- Replace the first element that a test picks. -/
def replaceFirst {α : Type} (p : α → Bool) (f : α → α) : List α → List α
  | [] => []
  | x :: xs => if p x then f x :: xs else x :: replaceFirst p f xs

/-- Remove the first element that a test picks. -/
def removeFirst {α : Type} (p : α → Bool) : List α → List α
  | [] => []
  | x :: xs => if p x then xs else x :: removeFirst p xs

/-- Lane l of a vector register (R59). -/
def lane (v : Lanes) (l : Nat) : W32 := v.getD l 0

/-- A vector register formed lane by lane. -/
def mkLanes (f : Nat → W32) : Lanes := (List.range 32).map f

/-- The 32 zero lanes. -/
def Lanes.zero : Lanes := List.replicate 32 0

/-- Lanes of a register as its 128 bytes, lane l at byte 4l (R59). -/
def lanesBytes (v : Lanes) : Bytes := v.flatMap (fun x => toLe 4 x.toNat)

/-- Lane values from bytes. -/
def lanesOf (bs : Bytes) : Lanes := mkLanes (fun l => BitVec.ofNat 32 (leNat ((bs.drop (4 * l)).take 4)))

end Sys2Proof
end

