-- ==== Sys2Proof/Machine/Crc.lean ====
section
/-! DEFINITION. CRC-8 of R135, and the named standards CRC-32C, SHA-256, HMAC and HKDF-Expand written out
(PRESUMED, log entry 13). -/

namespace Sys2Proof

/-- One bit of a CRC-8 with polynomial x^8 + x^2 + x + 1, most significant bit first (R135). -/
def crc8Bits : Nat → Nat → Nat
  | 0, c => c
  | n + 1, c => crc8Bits n (if bit c 7 then (c * 2 % 256) ^^^ 0x07 else c * 2 % 256)

/-- CRC-8 of R135: initial value 0, no reflection, no final inversion. -/
def crc8 (bs : Bytes) : Byte := BitVec.ofNat 8 (bs.foldl (fun c b => crc8Bits 8 (c ^^^ b.toNat)) 0)

/-- One byte of the reflected CRC-32C register (PRESUMED, log entry 13). -/
def crc32cBits : Nat → Nat → Nat
  | 0, c => c
  | n + 1, c => crc32cBits n (if c % 2 = 1 then (c / 2) ^^^ 0x82F63B78 else c / 2)

/-- CRC-32C, the Castagnoli polynomial, reflected, initial value and final inversion all ones (PRESUMED, log entry
13). -/
def crc32c (bs : Bytes) : W32 :=
  BitVec.ofNat 32 ((bs.foldl (fun c b => crc32cBits 8 (c ^^^ b.toNat)) 0xFFFFFFFF) ^^^ 0xFFFFFFFF)

/-- The 32-bit words of a number, most significant first. -/
def wordsOf (n x : Nat) : List W32 := (List.range n).map (fun i => BitVec.ofNat 32 (x / 2 ^ (32 * (n - 1 - i))))

/-- The round constants of SHA-256, sixteen to a number: the first 32 bits of the fractional parts of the cube roots of the
first 64 primes (PRESUMED, log entry 13). -/
def shaConstants : List W32 :=
  wordsOf 16 0x428a2f9871374491b5c0fbcfe9b5dba53956c25b59f111f1923f82a4ab1c5ed5d807aa9812835b01243185be550c7dc372be5d7480deb1fe9bdc06a7c19bf174 ++
  wordsOf 16 0xe49b69c1efbe47860fc19dc6240ca1cc2de92c6f4a7484aa5cb0a9dc76f988da983e5152a831c66db00327c8bf597fc7c6e00bf3d5a7914706ca635114292967 ++
  wordsOf 16 0x27b70a852e1b21384d2c6dfc53380d13650a7354766a0abb81c2c92e92722c85a2bfe8a1a81a664bc24b8b70c76c51a3d192e819d6990624f40e3585106aa070 ++
  wordsOf 16 0x19a4c1161e376c082748774c34b0bcb5391c0cb34ed8aa4a5b9cca4f682e6ff3748f82ee78a5636f84c878148cc7020890befffaa4506cebbef9a3f7c67178f2

/-- The eight variables of SHA-256: the four that a round shifts down from the top, and the four below. -/
structure ShaVars where
  top : List W32
  low : List W32

/-- The hash value before the first block (PRESUMED, log entry 13). -/
def shaStart : ShaVars :=
  { top := wordsOf 4 0x6a09e667bb67ae853c6ef372a54ff53a, low := wordsOf 4 0x510e527f9b05688c1f83d9ab5be0cd19 }

/-- The exclusive or of several rotations of a word. -/
def rotated (x : W32) (by_ : List Nat) : W32 := by_.foldl (fun y n => y ^^^ x.rotateRight n) 0

/-- A word from four bytes, the first most significant. -/
def beWord (bs : Bytes) : W32 := BitVec.ofNat 32 (leNat bs.reverse)

/-- The next word of the message schedule, from the words so far, newest first. -/
def nextWord (ws : List W32) : W32 :=
  let near := ws.getD 1 0
  let far := ws.getD 14 0
  (rotated near [17, 19] ^^^ (near >>> 10)) + ws.getD 6 0 + (rotated far [7, 18] ^^^ (far >>> 3)) + ws.getD 15 0

/-- `n` more words of the message schedule. -/
def schedule : Nat → List W32 → List W32
  | 0, ws => ws
  | n + 1, ws => schedule n (nextWord ws :: ws)

/-- A round: `kw` is the round constant plus the schedule's word. -/
def shaStep (v : ShaVars) (kw : W32) : ShaVars :=
  match v.top, v.low with
  | [a, b, c, d], [e, f, g, h] =>
    let t := kw + h + rotated e [6, 11, 25] + (g ^^^ (e &&& (f ^^^ g)))
    { top := [t + rotated a [2, 13, 22] + ((a &&& (b ||| c)) ||| (b &&& c)), a, b, c], low := [d + t, e, f, g] }
  | _, _ => v

/-- The hash value after one more block of 64 bytes. -/
def shaBlock (v : ShaVars) (blk : Bytes) : ShaVars :=
  let ws := (schedule 48 ((chunksB 4 16 blk).map beWord).reverse).reverse
  let r := (List.zipWith (· + ·) shaConstants ws).foldl shaStep v
  { top := List.zipWith (· + ·) v.top r.top, low := List.zipWith (· + ·) v.low r.low }

/-- SHA-256 (FIPS 180-4; PRESUMED, log entry 13). -/
def sha256 (bs : Bytes) : Bytes :=
  let fill := (119 - bs.length % 64) % 64
  let m := bs ++ [0x80] ++ zeros fill ++ (toLe 8 (8 * bs.length)).reverse
  let v := (chunksB 64 (m.length / 64) m).foldl shaBlock shaStart
  (v.top ++ v.low).flatMap (fun w => (toLe 4 w.toNat).reverse)

/-- HMAC with SHA-256 (PRESUMED, log entry 13). -/
def hmac (key msg : Bytes) : Bytes :=
  let k := padB (if key.length > 64 then sha256 key else key) 64
  sha256 (k.map (· ^^^ 0x5c) ++ sha256 (k.map (· ^^^ 0x36) ++ msg))

/-- HKDF-Expand with SHA-256 for at most 64 bytes (R354; RFC 5869 PRESUMED, log entry 13). -/
def hkdfExpand (prk info : Bytes) (n : Nat) : Bytes :=
  let t1 := hmac prk (info ++ [1])
  let t2 := hmac prk (t1 ++ info ++ [2])
  (t1 ++ t2).take n

end Sys2Proof
end

