-- ==== Sys2Proof/Machine/Float.lean ====
section
/-! DEFINITION. Number formats and rounding (R42 to R55): every value is taken apart exactly, computed exactly on
integers, and rounded once. -/

namespace Sys2Proof

/-- A number taken apart: NaN, an infinity, or ± m · 2^e exactly (zeros keep their sign). -/
inductive FVal where
  | nan
  | inf (neg : Bool)
  | fin (neg : Bool) (m : Nat) (e : Int)
deriving DecidableEq, Repr

/-- A floating-point layout: mantissa bits, exponent bits, and the weight of the smallest subnormal as a power of
two (R43). -/
structure FFmt where
  man : Nat
  exp : Nat
  qmin : Int
deriving DecidableEq, Repr

/-- FP32 (R43). -/
def FFmt.fp32 : FFmt := { man := 23, exp := 8, qmin := -149 }
/-- BF16 (R43). -/
def FFmt.bf16 : FFmt := { man := 7, exp := 8, qmin := -133 }
/-- FP8 E4M3 (R43). -/
def FFmt.e4m3 : FFmt := { man := 3, exp := 4, qmin := -9 }
/-- FP8 E5M2 (R43). -/
def FFmt.e5m2 : FFmt := { man := 2, exp := 5, qmin := -16 }
/-- MXFP6 element E3M2 (R43). -/
def FFmt.e3m2 : FFmt := { man := 2, exp := 3, qmin := -4 }
/-- MXFP4 element E2M1 (R43). -/
def FFmt.e2m1 : FFmt := { man := 1, exp := 2, qmin := -1 }

/-- The finite value of a code, every exponent ordinary (R43). -/
def FFmt.finite (f : FFmt) (x : Nat) : FVal :=
  let ex := bits x (f.man + f.exp - 1) f.man
  let mant := x % 2 ^ f.man
  let neg := bit x (f.man + f.exp)
  if ex = 0 then .fin neg mant f.qmin else .fin neg (2 ^ f.man + mant) (f.qmin + (ex : Int) - 1)

/-- The value of a code in a format whose top exponent holds infinities and NaNs (R43). -/
def FFmt.ieee (f : FFmt) (x : Nat) : FVal :=
  if bits x (f.man + f.exp - 1) f.man = 2 ^ f.exp - 1 then
    (if x % 2 ^ f.man = 0 then .inf (bit x (f.man + f.exp)) else .nan)
  else f.finite x

/-- The value of an FP32 word. -/
def f32 (x : W32) : FVal := FFmt.fp32.ieee x.toNat

/-- The value of an element code in a matrix operand format, by format code (R42, R43). -/
def elemVal (fmt x : Nat) : FVal :=
  if fmt = 1 then FFmt.bf16.ieee x
  else if fmt = 2 then FFmt.fp32.ieee x
  else if fmt = 3 ∨ fmt = 5 then (if x % 128 = 127 then .nan else FFmt.e4m3.finite x)
  else if fmt = 4 then FFmt.e5m2.ieee x
  else if fmt = 6 then FFmt.e3m2.finite x
  else FFmt.e2m1.finite x

/-- Shift right with round-to-nearest-even (R53). -/
def rneShift (m s : Nat) : Nat :=
  if s = 0 then m
  else
    let k := m / 2 ^ s
    let r := 2 * (m % 2 ^ s)
    if r > 2 ^ s ∨ (r = 2 ^ s ∧ k % 2 = 1) then k + 1 else k

/-- Shift right with the stochastic rule of R54: d is the dropped fraction in 2^-16, r the draw. -/
def stochShift (r m s : Nat) : Nat :=
  if s = 0 then m
  else
    let k := m / 2 ^ s
    let d := (m % 2 ^ s) * 65536 / 2 ^ s
    if d + r ≥ 65536 then k + 1 else k

/-- The magnitude code of m · 2^e on a format's grid, rounded by the given shift, overflow left to the caller. -/
def FFmt.round (f : FFmt) (shift : Nat → Nat → Nat) (m : Nat) (e : Int) : Nat :=
  if m = 0 then 0
  else
    let q := max ((Nat.log2 m : Int) + e - f.man) f.qmin
    let k := if e ≥ q then m * 2 ^ (e - q).toNat else shift m (q - e).toNat
    (q - f.qmin).toNat * 2 ^ f.man + k

/-- An FP32 result with the numeric events it raises (R52). -/
structure FRes where
  bits : W32
  nan : Bool
  ovf : Bool
deriving DecidableEq, Repr

/-- The canonical FP32 NaN (R47). -/
def canonNaN : W32 := 0x7FC00000

/-- Round an exact value to FP32 with round-to-nearest-even (R47, R50, R53). -/
def roundF32 : FVal → FRes
  | .nan => { bits := canonNaN, nan := true, ovf := false }
  | .inf neg => { bits := if neg then 0xFF800000 else 0x7F800000, nan := false, ovf := false }
  | .fin neg m e =>
    let code := FFmt.fp32.round rneShift m e
    let ovr := decide (code ≥ 0x7F800000)
    let mag := if ovr then 0x7F800000 else code
    { bits := BitVec.ofNat 32 (if neg then 0x80000000 + mag else mag), nan := false, ovf := ovr }

/-- Negate a value. -/
def FVal.neg : FVal → FVal
  | .nan => .nan
  | .inf n => .inf (!n)
  | .fin n m e => .fin (!n) m e

/-- Exact product (R50). -/
def FVal.mul : FVal → FVal → FVal
  | .nan, _ => .nan
  | _, .nan => .nan
  | .inf a, .inf b => .inf (a != b)
  | .inf a, .fin b m _ => if m = 0 then .nan else .inf (a != b)
  | .fin a m _, .inf b => if m = 0 then .nan else .inf (a != b)
  | .fin a m e, .fin b m' e' => .fin (a != b) (m * m') (e + e')

/-- A signed integer multiple of 2^q for a value whose exponent is at least q. -/
def scaleInt (neg : Bool) (m : Nat) (e q : Int) : Int :=
  let k : Int := (m * 2 ^ (e - q).toNat : Nat)
  if neg then -k else k

/-- Exact sum; an exact zero is +0 unless both addends are negative (R50). -/
def FVal.add : FVal → FVal → FVal
  | .nan, _ => .nan
  | _, .nan => .nan
  | .inf a, .inf b => if a = b then .inf a else .nan
  | .inf a, .fin _ _ _ => .inf a
  | .fin _ _ _, .inf b => .inf b
  | .fin a m e, .fin b m' e' =>
    let q := min e e'
    let s := scaleInt a m e q + scaleInt b m' e' q
    .fin (if s = 0 then a && b else decide (s < 0)) s.natAbs q

/-- FP32 addition (R63). -/
def fadd32 (x y : W32) : FRes := roundF32 ((f32 x).add (f32 y))
/-- FP32 subtraction (R63). -/
def fsub32 (x y : W32) : FRes := roundF32 ((f32 x).add (f32 y).neg)
/-- FP32 multiplication (R63). -/
def fmul32 (x y : W32) : FRes := roundF32 ((f32 x).mul (f32 y))
/-- Fused multiply-add, rounded once (R63). -/
def fma32 (x y z : W32) : FRes := roundF32 (((f32 x).mul (f32 y)).add (f32 z))

/-- An overflow counts only when it makes an infinity from finite operands (R52); fused and plain results say so
themselves, so the events of a result are its own flags. -/
def FRes.isNaN (r : FRes) : Bool := r.nan

/-- Strict order of two values that are not NaN, with -0 below +0 (R63). -/
def FVal.below : FVal → FVal → Bool
  | .nan, _ => false
  | _, .nan => false
  | .inf a, .inf b => a && !b
  | .inf a, .fin _ _ _ => a
  | .fin _ _ _, .inf b => !b
  | .fin a m e, .fin b m' e' =>
    let q := min e e'
    let x := scaleInt a m e q
    let y := scaleInt b m' e' q
    decide (x < y) || (decide (x = y) && a && !b)

/-- Whether a value is NaN. -/
def FVal.isNaN : FVal → Bool
  | .nan => true
  | _ => false

/-- Whether a value is zero of either sign. -/
def FVal.isZero : FVal → Bool
  | .fin _ m _ => m == 0
  | _ => false

/-- Whether a value is below zero; NaN and both zeros are not (R55). -/
def FVal.negative : FVal → Bool
  | .nan => false
  | .inf n => n
  | .fin n m _ => n && m != 0

/-- Whether a value is finite. -/
def FVal.finite : FVal → Bool
  | .fin _ _ _ => true
  | _ => false

/-- IEEE 754 minimum: a NaN gives the canonical NaN (R63). -/
def fmin32 (x y : W32) : FRes :=
  if (f32 x).isNaN || (f32 y).isNaN then roundF32 .nan
  else { bits := if (f32 y).below (f32 x) then y else x, nan := false, ovf := false }

/-- IEEE 754 maximum (R63). -/
def fmax32 (x y : W32) : FRes :=
  if (f32 x).isNaN || (f32 y).isNaN then roundF32 .nan
  else { bits := if (f32 x).below (f32 y) then y else x, nan := false, ovf := false }

/-- Ordered comparison of FP32 values, zeros equal. -/
def flt32 (x y : W32) : Bool :=
  (f32 x).below (f32 y) && !((f32 x).isZero && (f32 y).isZero)

/-- Equality of FP32 values: false when unordered, zeros equal. -/
def feq32 (x y : W32) : Bool :=
  !(f32 x).isNaN && !(f32 y).isNaN && !(flt32 x y) && !(flt32 y x)

/-- The comparisons of FCMP by function code; none for a reserved code (R127). -/
def fcmp32 (fn : Nat) (x y : W32) : Option Bool :=
  if fn = 0 then some (feq32 x y)
  else if fn = 1 then some (flt32 x y)
  else if fn = 2 then some (flt32 x y || feq32 x y)
  else if fn = 3 then some (!(feq32 x y))
  else if fn = 4 then some ((f32 x).isNaN || (f32 y).isNaN)
  else none

/-- A conversion result: the code, and the events NUM_NAN, NUM_INF, NUM_SAT it raises (R47, R52). -/
structure CRes where
  code : Nat
  nan : Bool
  inf : Bool
  sat : Bool
deriving DecidableEq, Repr

/-- Conversion of a value to BF16, E4M3 or E5M2 (format codes 1, 3, 4) with the given rounding shift (R47, R53,
R54). -/
def toNarrow (fmt : Nat) (shift : Nat → Nat → Nat) (v : FVal) : CRes :=
  let f := if fmt = 1 then FFmt.bf16 else if fmt = 3 then FFmt.e4m3 else FFmt.e5m2
  let signBit := 2 ^ (f.man + f.exp)
  let infCode := (2 ^ f.exp - 1) * 2 ^ f.man
  match v with
  | .nan => { code := if fmt = 1 then 0x7FC0 else if fmt = 3 then 0x7F else 0x7E, nan := true, inf := false, sat := false }
  | .inf neg =>
    if fmt = 3 then { code := (if neg then signBit else 0) + 0x7E, nan := false, inf := false, sat := true }
    else { code := (if neg then signBit else 0) + infCode, nan := false, inf := false, sat := false }
  | .fin neg m e =>
    let c := f.round shift m e
    let s := if neg then signBit else 0
    if fmt = 3 then
      (if c > 0x7E then { code := s + 0x7E, nan := false, inf := false, sat := true }
       else { code := s + c, nan := false, inf := false, sat := false })
    else if c ≥ infCode then { code := s + infCode, nan := false, inf := true, sat := false }
    else { code := s + c, nan := false, inf := false, sat := false }

/-- Nearest integer to n / d, ties to even. -/
def rneDiv (n d : Nat) : Nat :=
  let k := n / d
  let r := 2 * (n % d)
  if r > d ∨ (r = d ∧ k % 2 = 1) then k + 1 else k

/-- FP32 to INT32 with RNE and saturation; the flag counts in NUM_SAT (R70). -/
def toInt32 (v : FVal) : W32 × Bool :=
  match v with
  | .nan => (0, true)
  | .inf neg => (if neg then 0x80000000 else 0x7FFFFFFF, true)
  | .fin neg m e =>
    let k := if e ≥ 0 then m * 2 ^ e.toNat else rneShift m (-e).toNat
    if neg then (if k > 2 ^ 31 then (0x80000000, true) else (BitVec.ofInt 32 (-(k : Int)), false))
    else if k > 2 ^ 31 - 1 then (0x7FFFFFFF, true) else (BitVec.ofNat 32 k, false)

/-- INT32 to FP32 with RNE (R70). -/
def ofInt32 (x : W32) : W32 := (roundF32 (.fin (decide (x.toInt < 0)) x.toInt.natAbs 0)).bits

/-- FP32 with scale s to a 48-bit grid integer: nearest to g · 2^16 / s, ties to even, from the exact quotient
(R70). The scale is finite and above zero. -/
def toGrid (g s : FVal) : Int × Bool :=
  let top : Int := 2 ^ 47 - 1
  match g, s with
  | .nan, _ => (0, true)
  | .inf neg, _ => (if neg then -top else top, true)
  | .fin neg m e, .fin _ m' e' =>
    let p := e + 16 - e'
    let k : Int := if p ≥ 0 then (rneDiv (m * 2 ^ p.toNat) m' : Nat) else (rneDiv m (m' * 2 ^ (-p).toNat) : Nat)
    if k > top then (if neg then -top else top, true) else (if neg then -k else k, false)
  | .fin _ _ _, _ => (0, true)

/-- The largest finite code and emax of an MX element format (R45): MXFP8, MXFP6, MXFP4. -/
def mxElem (fmt : Nat) : FFmt × Nat × Int :=
  if fmt = 5 then (FFmt.e4m3, 0x7E, 8) else if fmt = 6 then (FFmt.e3m2, 0x1F, 4) else (FFmt.e2m1, 0x7, 2)

/-- Bits of an MX element. -/
def mxWidth (fmt : Nat) : Nat := if fmt = 5 then 8 else if fmt = 6 then 6 else 4

/-- A block to MX: scale code, element codes, whether it counts in NUM_NAN, and the elements that saturate (R46). The
rounding shift is given per element. -/
def toMx (fmt : Nat) (shift : Nat → Nat → Nat → Nat) (vs : List FVal) : Nat × List Nat × Bool × List Nat :=
  let (f, top, emax) := mxElem fmt
  if vs.any (fun v => !v.finite) then (0xFF, vs.map (fun _ => 0), true, [])
  else
    let lg := vs.filterMap (fun v => match v with
      | .fin _ m e => if m = 0 then none else some ((Nat.log2 m : Int) + e)
      | _ => none)
    match lg with
    | [] => (0, vs.map (fun _ => 0), false, [])
    | l :: ls =>
      let x := max (-127) (min 127 (ls.foldl max l - emax))
      let es := vs.zipIdx.map (fun p => match p.1 with
        | .fin neg m e =>
          let c := f.round (shift p.2) m (e - x)
          let ovr := decide (c > top)
          ((if neg then 2 ^ (f.man + f.exp) else 0) + (if ovr then top else c), ovr)
        | _ => (0, false))
      ((x + 127).toNat, es.map Prod.fst, false, (es.zipIdx.filter (fun p => p.1.2)).map Prod.snd)

/-- The value of an E8M0 scale code (R43). -/
def scaleVal (code : Nat) : FVal := if code = 255 then .nan else .fin false 1 ((code : Int) - 127)

/-- Pack element codes of `w` bits each, element 0 lowest (R44). -/
def packBits (w : Nat) : List Nat → Nat
  | [] => 0
  | x :: xs => x % 2 ^ w + 2 ^ w * packBits w xs

/-- Element i of `w` bits in a packed byte string (R44). -/
def unpackAt (w : Nat) (bs : Bytes) (i : Nat) : Nat :=
  leNat ((bs.drop (w * i / 8)).take 3) / 2 ^ (w * i % 8) % 2 ^ w

/-- Bits of an element of a format (R43, R44). -/
def fmtWidth (fmt : Nat) : Nat :=
  if fmt = 1 then 16 else if fmt = 2 ∨ fmt = 0x0C then 32 else if fmt = 6 then 6 else if fmt = 7 then 4 else 8

/-- Element i of a packed operand row (R44). -/
def elemAt (fmt : Nat) (bs : Bytes) (i : Nat) : Nat :=
  if fmtWidth fmt = 32 then leNat ((bs.drop (4 * i)).take 4) else unpackAt (fmtWidth fmt) bs i

end Sys2Proof
end

