-- ==== Sys2Proof/Config.lean ====
section
/-! DEFINITION. What an implementation fixes and what the spec leaves open, as constants with no body: nothing can
evaluate one, so a statement about it holds for every value. Log entry 6 covers the free values, entry 14 the
standards that the spec names and does not give. -/

namespace Sys2Proof

/-- A value the spec does not state, `w` bits wide, drawn by number (log entry 6). -/
opaque Config.free (w : Nat) : Nat → BitVec w

/-- What a register holds after several results have landed in it in one lc: a value that depends on them alone (R16,
R79; log entry 6). -/
opaque Config.clash : List W64 → W64

/-- ROM level (R330). -/
opaque Config.romLevel : BitVec 16

/-- The SHA-256 hash of the root public key in ROM (R355). -/
opaque Config.rootHash : Bytes

/-- Contents of the test ROM (R83): the spec gives its layout only. -/
opaque Config.testRom : Nat → Byte

/-- What the sentinel routine leaves in lane l of register r of V0, numbered 32 r + l (R179). -/
opaque Config.sentinelReg : Nat → W32

/-- What the sentinel routine leaves in mask register r of V0 (R179). -/
opaque Config.sentinelMask : Nat → W32

/-- What the sentinel routine leaves in byte i of the scratch range (R179). -/
opaque Config.sentinelScratch : Nat → Byte

/-- SLH-DSA-SHA2-128s verification under FIPS 205: public key, message digest, signature (R192). -/
opaque Config.slhVerify : Bytes → Bytes → Bytes → Bool

/-- SLH-DSA-SHA2-128s signing under FIPS 205: the 48 secret bytes of R354 and the message digest (R364). -/
opaque Config.slhSign : Bytes → Bytes → Bytes

/-- PK.root of the key pair that slh_keygen_internal forms from SK.seed, SK.prf and PK.seed (R354). -/
opaque Config.slhRoot : Bytes → Bytes

/-- The 97-byte uncompressed P-384 public key of a private key (R354, R363). -/
opaque Config.p384Public : Nat → Bytes

/-- The order of the P-384 group (R354). -/
opaque Config.p384Order : Nat

/-- Whether the PUF read and the helper record reconstruct the secret (R354 step 2): helper data and secret. -/
opaque Config.pufCheck : Bytes → Bytes → Bool

/-- Whether a DER certificate is well formed and verifies under a 32-byte key (R355). -/
opaque Config.certSigned : Bytes → Bytes → Bool

/-- The 32-byte SLH-DSA public key that a certificate carries (R355). -/
opaque Config.certKey : Bytes → Bytes

/-- The role named by the Damust extension of a certificate: 1 FACTORY, 2 POLICY (R355). -/
opaque Config.certRole : Bytes → Nat

/-- The subject public key of the identity certificate (R355). -/
opaque Config.certSubject : Bytes → Bytes

/-- Whether the subject key of a certificate is a P-384 key (R355). -/
opaque Config.certP384 : Bytes → Bool

/-- Whether the PUF helper record verifies under a key (R349, R355). -/
opaque Config.helperSigned : Bytes → Bytes → Bool

/-- Output payload of the Identify command, defined by CXL 3.1 (R337). -/
opaque Config.identifyPayload : Bytes

/-- The command effects log, defined by CXL 3.1 (R337). -/
opaque Config.effectsLog : Bytes

/-- The list of supported logs, defined by CXL 3.1 (R337). -/
opaque Config.supportedLogs : Bytes

/-- The fields of the Identify Memory Device payload that the spec does not state, by byte offset (R337). -/
opaque Config.memIdentifyByte : Nat → Byte

/-- Damust's PCI-SIG vendor ID (R325; log entry 91). -/
opaque Config.vendorId : BitVec 16

/-- A CXL.cachemem component register by its BAR0 offset, from what the engine can show there (R328; log entry 91). -/
opaque Config.componentReg : Nat → List Nat → W32

/-- The memory-device status register in a state (R328; log entry 91). -/
opaque Config.memDevStatus : Nat → W64

/-- The status word of a stack controller, which the spec names and does not describe: stack and lc (R231; log entry 88). -/
opaque Config.stackStatus : Nat → Nat → W32

end Sys2Proof
end

