-- ==== Sys2Proof/Machine/State.lean ====
section
/-! DEFINITION. The state of the engine as plain data: every register, memory, queue, table and pin the spec gives
it (INVENTORY.md, section State), the queue of waiting commands, and the model's own clock and free-value
counters. State.reset is the module before its first cold start (log entry 5). -/

namespace Sys2Proof.Machine

/-! ## Power, heat and time (17, 19) -/

/-- State of a feed (R393). -/
inductive FeedState where
  | absent | inRange | disconnected
deriving DecidableEq, Repr

/-- The feed registers of class 0x6 unit 3 (R393). -/
structure FeedReg where
  mv : Nat
  ma : Nat
  watts : Nat
  st : FeedState
deriving DecidableEq, Repr

/-- Pins and supplies (R381 to R383, R428 to R430). The outputs PGOOD_N and FAULT_N are true when asserted. -/
structure Power where
  pwrEn : Bool
  flashPgm : Bool
  /-- PWR_EN is asserted while FLASH_PGM_N holds back the start (R430). -/
  held : Bool
  /-- The 12 V bus and the hub, ring-die and stack supplies are on. -/
  on : Bool
  pgood : Bool
  fault : Bool
  feedA : FeedReg
  feedB : FeedReg
  refPresent : Bool
  /-- The hall-reference input: a reference within ±5 ppm, or one outside (R372). -/
  hallRefOk : Bool
  hallRefBad : Bool
  /-- FLASH_VCC is applied (R428, R430). -/
  flashVcc : Bool
  /-- The ports whose cage holds no module, as its presence signal says (R425, R426; log entry 101). -/
  emptyCages : List Nat
deriving DecidableEq, Repr

/-- State of a field supply (R393). -/
inductive SupplyState where
  | off | on | thermalTrip | supplyFault
deriving DecidableEq, Repr

/-- One field's supply and PLL (R393). -/
structure FieldReg where
  vset : Nat
  mv : Nat
  ma : Nat
  vmin : Nat
  supply : SupplyState
  pll : Bool
deriving DecidableEq, Repr

/-- A field that is off (R383). -/
def FieldReg.reset : FieldReg := { vset := 0, mv := 0, ma := 0, vmin := 0, supply := .off, pll := false }

/-- Sensors, thermal requests and history (R386 to R388, R393). -/
structure Heat where
  fields : Tab FieldReg
  /-- Last reading of each sensor in 0.25 °C, by sensor number (sensorNumber). -/
  sensors : Tab Int
  req : Bool
  drop : Bool
  /-- REQ is re-armed (R387). -/
  armed : Bool
  /-- A drop threshold has been read since the last release or run command (R181, R387). -/
  hot : Bool
  history : Tab Bytes
  histCount : Nat
deriving DecidableEq, Repr

/-- The hall-time counter (R333, R377 to R380). `ns` counts units of 2^-32 ns, `rate` is the rate word in the same
unit per module-reference cycle, `slew` what the frame in force still adds, in the same unit per cycle. -/
structure Hall where
  ns : Nat
  rate : Int
  slew : Int
  /-- How much of the frame's 10 µs is left, in 84ths of a reference cycle (R378). -/
  slewLeft : Nat
  /-- Sub-cycle remainder of the tick, in 84ths of a reference cycle (log entry 12). -/
  frac : Nat
  lastErr : Int
  frames : Nat
  good : Nat
  bad : Nat
  lock : Bool
  offsetSet : Bool
  ref10 : Bool
  frameErr : Nat
  offset : Int
  /-- Time since hub release, in 84ths of 2^-32 ns: the counter without its corrections (R367). -/
  up : Nat
  /-- The step of a frame edge in the current reference cycle, in 2^-32 ns: reads see it from the next cycle on (R380). -/
  step : Int
deriving DecidableEq, Repr

/-! ## Device registers, mailbox, identity (15, 16) -/

/-- DEV_STATUS.STATE (R331). -/
inductive DevState where
  | coldStart | startFailed | ready | loadOpen | resident | configured | running | safe | lender | scrubbing
  | warmStart | salvage
deriving DecidableEq, Repr

/-- DSTATUS of a vendor command (R338). -/
inductive DStatus where
  | ok | busy | state | check | range | duplicate | full | notIde | noIdentity
deriving DecidableEq, Repr

/-- A background command in progress, with the inputs its end needs (R337, R339). -/
inductive BgCmd where
  | verify
  | configure
  | relief (patch : Bytes)
  | warmStart
  | readback (ranges : List (Nat × Nat))
  | attest (quote : Bytes)
  | endLend
deriving DecidableEq, Repr

/-- What BG_RESULT returns (R340). -/
structure BgResult where
  dstatus : DStatus
  check : Nat
  opcode : Nat
  sect : Nat
  offset : Nat
  x : Nat
  y : Nat
  value : Nat
  quote : Bytes
deriving DecidableEq, Repr

/-- The mailbox as the host reads it after a command (R337, R338). -/
structure Mailbox where
  rc : Nat
  dstatus : DStatus
  check : Nat
  out : Bytes
  bg : Option BgCmd
  /-- A READBACK or ATTEST accepted in STATE 9 or 10, where END_LEND or WARM_START runs already (R205, R340). -/
  beside : Option BgCmd
  bgRes : BgResult
  /-- The relief patch being sent in chunks: TOTAL and the bytes so far (R341). -/
  partPatch : Option (Nat × Bytes)
  /-- Opcode of the last command, as the Command register keeps it (R337). -/
  opcode : Nat
deriving DecidableEq, Repr

/-- The Damust device registers with no home elsewhere (R330 to R332). -/
structure Dev where
  st : DevState
  startStep : Nat
  startCause : BitVec 16
  ident : Bool
  guard : Bool
  physId : W64
  grade : Byte
  loadOpen : Bool
  loadSize : Nat
deriving DecidableEq, Repr

/-- The width, rate in GT/s and flit size in bytes that the host port has trained to; zeros without a link (R322). -/
structure LinkMode where
  lanes : Nat
  rate : Nat
  flit : Nat
deriving DecidableEq, Repr

/-- One entry of the MSI-X table (R328; its layout is that of PCI Express, log entry 91). -/
structure MsixEntry where
  addr : W64
  data : W32
  masked : Bool
deriving DecidableEq, Repr

/-- The CXL port (R322 to R328): link, configuration space that software changes, IDE streams and SPDM session, decoder,
MSI-X, timestamp, and what the last access returned. `msix` counts how often vectors 0 to 3 were raised, and `msixPending` is
the pending-bit array. -/
structure Cxl where
  link : Bool
  mode : LinkMode
  /-- Address assigned to BAR0 (R325, R326). -/
  bar0 : W64
  /-- The selective stream on CXL.io is secure (R324). -/
  ide : Bool
  session : Bool
  ideKeyed : Bool
  /-- CXL.cachemem IDE is secure, in containment mode (R324). -/
  memIde : Bool
  memKeyed : Bool
  msixTable : List MsixEntry
  msixPending : List Bool
  committed : Bool
  decErr : Bool
  timestamp : W64
  /-- Hall time at which the timestamp was set; it advances with it (log entry 35). -/
  timestampAt : Nat
  msix : List Nat
  regOut : W64
  hdmData : Bytes
  hdmPoison : Bool
  spdmAnswers : Nat
deriving DecidableEq, Repr

/-- SAFE_STATUS and SAFE_TIME (R335), and the frozen lc as an offset from the last release (R206, R367). -/
structure SafeReg where
  safe : Bool
  cause : BitVec 8
  place : BitVec 4
  loc : BitVec 44
  time : W64
  frozen : Nat
deriving DecidableEq, Repr

/-- A policy block in force (R357, R358, R364). -/
structure Policy where
  type : Nat
  version : Nat
  minRom : Nat
  maxRom : Nat
  digest : Bytes
  params : List (Nat × Nat)
deriving DecidableEq, Repr

/-- Physical and logical identity (R354, R356). -/
structure Identity where
  tag : BitVec 16
  epoch : BitVec 8
  rank : Nat
  stage : Nat
  n : Nat
  secret : Bytes
  pk : Bytes
  idHash : Bytes
  linkPub : Bytes
  policies : List Policy
deriving DecidableEq, Repr

/-- One event-log record (R367). -/
structure EventRec where
  time : W64
  code : BitVec 16
  sev : Byte
  tlock : Bool
  place : BitVec 4
  loc : BitVec 28
  data : Bytes
deriving DecidableEq, Repr

/-- One weir record (R166). -/
structure WeirRec where
  weir : Nat
  relay : Bool
  gear : Nat
  sent : Bool
  deferred : Bool
  digests : Bool
  last : Nat
  lastIndex : Nat
  time : W64
  holdLc : Nat
  step : Nat
deriving DecidableEq, Repr

/-- One digest record (R178). -/
structure DigestRec where
  digest : W128
  tid : W32
  weir : Nat
  step : Nat
deriving DecidableEq, Repr

/-- The three logs: rings keyed by record number modulo the ring size, and the counts (R166, R178, R204, R367). -/
structure Logs where
  events : Tab EventRec
  eventCount : Nat
  weirs : Tab WeirRec
  weirCount : Nat
  digests : Tab DigestRec
  digestCount : Nat
deriving DecidableEq, Repr

/-! ## Defect map and manifest (02, 09) -/

/-- The merged map (R28 to R31). `marks` lists the cluster positions that are bad (0b10) or suspect (0b11);
every other cluster position is good and every other position vacant once the map is built. -/
structure MapReg where
  built : Bool
  marks : Tab (BitVec 2)
  lanes : List (BitVec 32)
  failed : List (Nat × Dir)
  /-- LINK_SPARE of each router (R137). -/
  spare : Tab (BitVec 16)
deriving DecidableEq, Repr

/-- The declaration of LOAD (R197). -/
structure LoadDecl where
  key : Bytes
  digest : Bytes
  size : Nat
deriving DecidableEq, Repr

/-- The resident manifest (R196, R197, R362). Its bytes lie in the stack reserve (R198); the patches that were
resident or sent by RELIEF are kept beside it. -/
structure Resident where
  key : Bytes
  ownerHash : Bytes
  digest : Bytes
  size : Nat
  patches : List Bytes
deriving DecidableEq, Repr

/-- An external condition of a weir (R162, R191). -/
structure Cond where
  kind : Nat
  defer : Bool
  obj : Nat
  arg : Nat
deriving DecidableEq, Repr

/-- A digest read (R191). -/
structure DigRead where
  tid : W32
  x : Nat
  y : Nat
  addr : Nat
deriving DecidableEq, Repr

/-- A weir-table entry (R157, R191). -/
structure WeirEntry where
  num : Nat
  relay : Bool
  sent : Bool
  deadline : Nat
  relayAfter : Nat
  conds : List Cond
  digs : List DigRead
deriving DecidableEq, Repr

/-- What configuration loads into the hub (R190, R191, R195). -/
structure Image where
  mode : Nat
  runBlock : Nat
  gearDiv : List Nat
  sentDigest : W128
  weirs : List WeirEntry
  /-- The participants: the clusters on which the manifest places work, after relief (R152, R186). -/
  parts : List Nat
  /-- The patches applied, by field (R195, R364). -/
  applied : List (Nat × Bytes)
deriving DecidableEq, Repr

/-- The run block of the run in progress or the last one, and START_TIME (R160, R340). -/
structure RunBlock where
  step : Nat
  seeds : List W64
  dataPos : W64
  gear : Nat
  startTime : Nat
deriving DecidableEq, Repr

/-! ## Weirs (07, 08) -/

/-- WEIR_STATUS.STATE (R167). -/
inductive WPhase where
  | noRun | beforeDue | held | released | expired
deriving DecidableEq, Repr

/-- A condition deferred from the preceding weir (R169). -/
structure Deferred where
  index : Nat
  weirNum : Nat
  cond : Cond
  latched : Bool
deriving DecidableEq, Repr

/-- A release whose resume is still to come (R154): its resume lc, the weir's index, its segment and its gear. -/
structure Resume where
  at_ : Nat
  ix : Nat
  seg : Bool
  gear : Nat
deriving DecidableEq, Repr

/-- The weir controller and the steward's decisions (R152 to R171). -/
structure WeirCtl where
  /-- Index in the weir table of the weir awaited; the number of weirs once the final weir has released. -/
  await : Nat
  phase : WPhase
  arrived : List Nat
  landed : List Nat
  latched : List Nat
  deferred : List Deferred
  due : Option Nat
  decided : Bool
  relayPosted : Bool
  eligible : Bool
  /-- Digest reads of the awaited weir already made (R178). -/
  digsDone : Nat
  /-- What completed last: LAST and LAST_INDEX of R166. -/
  last : Nat
  lastIndex : Nat
  /-- The lc of that completion, and its place in the order of R166 among those of the same lc. -/
  lastLc : Nat
  lastRank : Nat
  seg : Bool
  relLc : Nat
  /-- The index of the weir released last. -/
  relIx : Nat
  /-- Releases whose resume is still to come, in order; more than one only in a manifest without participants (R152). -/
  resumes : List Resume
  gear : Nat
  nextGear : Nat
  /-- The HOST commands recorded for the run (R342): weir numbers. -/
  hostRecs : List Nat
  hold : Bool
  relayDis : Bool
  holdTotal : Nat
  relays : Nat
deriving DecidableEq, Repr

/-! ## Clusters (02 to 07) -/

/-- STATE of a core (R203): stopped at END or STOP, issuing, waiting in WAIT, at a weir. -/
inductive CoreSt where
  | stopped | issuing | waiting | atWeir
deriving DecidableEq, Repr

/-- One loop-stack entry (R203): remaining count, body start, body end. -/
structure LoopFrame where
  left : Nat
  start : Nat
  stop : Nat
deriving DecidableEq, Repr

/-- A scalar core (R79, R203). `ready` is the first lc in which it can issue its next instruction. -/
structure ScalarCore where
  g : Tab W64
  pc : Nat
  st : CoreSt
  rets : List Nat
  loops : List LoopFrame
  ready : Nat
deriving DecidableEq, Repr

/-- The tile state of a digest folder (R76, R203), and whether a tile is in progress. -/
structure TileState where
  s : W128
  tid : W32
  row : W32
  col : W32
  fmt : W32
  words : Nat
  inProg : Bool
deriving DecidableEq, Repr

/-- Generator state (R78). -/
structure GenState where
  seed : W64
  tid : W32
  step : BitVec 48
  ibase : BitVec 48
deriving DecidableEq, Repr

/-- A table unit: its image and the lc of a load in progress, first and last (R65). -/
structure TableUnit where
  img : Mem
  loadFrom : Nat
  loadTo : Nat
deriving DecidableEq, Repr

/-- A vector core (R59, R62, R203). -/
structure VecCore where
  v : Tab Lanes
  m : Tab W32
  dig : W128
  tile : TileState
  gen : GenState
  pc : Nat
  st : CoreSt
  repLeft : Nat
  repStart : Nat
  repStop : Nat
  repIter : Nat
  fwd : TableUnit
  der : TableUnit
  ready : Nat
deriving DecidableEq, Repr

/-- The exact sum of an open K-block of one output (R48, R436), scales included: in units of 2^-286, with the special
values that entered it, and whether the output has overflowed since the last drain (R52). -/
structure KSum where
  sum : Int
  nan : Bool
  pinf : Bool
  ninf : Bool
  ovf : Bool
deriving DecidableEq, Repr

/-- An empty K-block. -/
def KSum.reset : KSum := { sum := 0, nan := false, pinf := false, ninf := false, ovf := false }

/-- An auxiliary descriptor (R125). -/
structure AuxDesc where
  sa : Nat
  sb : Nat
  sastr : Nat
  sbstr : Nat
  rmask : Nat
  bmask : Nat
  rm : Bool
  bm : Bool
deriving DecidableEq, Repr

/-- A macro-operation in progress (R122, R123): its descriptor as read, its issue lc and the next row, token or
unit. `bufA` and `bufB` hold the wide row read last for each operand, with its address, from which consecutive rows
are taken; `mask` the row mask with the block mask folded in, bit k for row k (R57). -/
structure Macro where
  mopc : Nat
  fmtA : Nat
  fmtB : Nat
  count : Nat
  acc : Bool
  toQueue : Bool
  drain : Bool
  aux : Option AuxDesc
  aAddr : Nat
  bAddr : Nat
  aStr : Nat
  bStr : Nat
  dAddr : Nat
  issue : Nat
  j : Nat
  bufA : Option (Nat × Bytes)
  bufB : Option (Nat × Bytes)
  blockScale : Bytes
  mask : Nat
deriving DecidableEq, Repr

/-- A matrix core (R38 to R41, R203, R436). -/
structure MatCore where
  /-- First lc after the occupancy of the macro-operation issued last. -/
  free : Nat
  desc : Nat
  subB : W32
  block : Bytes
  tbuf : Bytes
  out : Tab W32
  ksum : Tab KSum
  tokens : Nat
  /-- An FP8 or MX token has entered the open K-block (R436). -/
  opened : Bool
  op : Option Macro
deriving DecidableEq, Repr

/-- STATE of a scoreboard entry (R96). -/
inductive SbSt where
  | idle | armed | done
deriving DecidableEq, Repr

/-- A scoreboard entry or template (R96, R130). -/
structure Score where
  st : SbSt
  arm : Nat
  rel : Nat
  amem : Bool
  first : Nat
  rows : Nat
  expect : Nat
  gated : Bool
  seg : Nat
  landed : Nat
deriving DecidableEq, Repr

/-- A landing-queue row buffer (R149): key, parts by number, and the order of completion once complete. -/
structure LandBuf where
  amem : Bool
  row : Nat
  parts : Tab (Option (BitVec 256))
  order : Nat
  /-- Where its first part came from, for the event of R103 (as InFlight.src). -/
  src : Nat
deriving DecidableEq, Repr

/-- A place in a slot list (R143 to R145): the bank cursors, the active bank, the bank of the list that is stepped, the entry
being applied, the lc of that entry already applied, where the hold run starts, and the lc in which the last lc was
applied. -/
structure SlotPos where
  /-- ROUTE_STATE.ACTIVE: the bank that the last release selected; its list starts 128 lc later (R144). -/
  active : Bool
  /-- The bank of the list that is stepped. -/
  bank : Bool
  hold : Bool
  run : Bool
  cur0 : Nat
  cur1 : Nat
  entry : Nat
  j : Nat
  holdStart : Nat
  /-- lc of the segment run applied so far, for the local-read rule of R138. -/
  segLc : Nat
  /-- The next lc to apply. -/
  nextLc : Nat
deriving DecidableEq, Repr

/-- Numeric-event, ECC and mesh counters of a cluster in class 0x7 (R52, R73, R76, R93, R156). -/
structure Counters where
  numNan : W32
  numInf : W32
  numSat : W32
  scReset : W32
  digAbandon : W32
  meshNan : W32
  meshInf : W32
  eccCorr : W32
  eccLast : W32
deriving DecidableEq, Repr

/-- Which unit accessed a bank, and how (R94, R95). -/
inductive Use where
  | read | write | narrow
deriving DecidableEq, Repr

/-- A use of a bank's port in an lc (R88, R95). -/
structure PortUse where
  lc : Nat
  bank : Nat
  row : Nat
  use : Use
  /-- The access this use belongs to, so that an access does not collide with itself. -/
  id : Nat
deriving DecidableEq, Repr

/-- A result or commit that is not yet visible (R60, R61, R94). -/
inductive Late where
  | g (k : Sc) (r : Nat) (v : W64)
  /-- A result for an address register, and whether a load makes it (R119). -/
  | a (r : Nat) (v : W32) (ld : Bool)
  | v (core r : Nat) (lanes : Lanes) (mask : W32)
  | m (core r : Nat) (val mask : W32)
  /-- A memory write: address, contents, the access it belongs to (R95), and whether a core makes it rather than the
  router's local port (R119). -/
  | mem (addr : Nat) (data : Bytes) (id : Nat) (core : Bool)
  | dig (core : Nat) (h : W128)
  | dclr (core : Nat)
  | gen (core : Nat) (g : GenState)
  | adv (core : Nat)
  /-- S1's table read j of nine (R117): the core, the unit and the address of the image. -/
  | tread (core : Nat) (deriv : Bool) (addr j : Nat)
  /-- S1's read of a generator state (R117). -/
  | gread (core addr : Nat)
  /-- A landing write counts at the end of its commit lc (R97). -/
  | land (amem : Bool) (row : Nat)
  | vstart (core pc : Nat)
  | s1start (pc : Nat)
  /-- A result row of an F or X core due at the matrix-to-vector queue (R38). -/
  | mvq (row : Bytes)
  /-- An ADD result row: the P-mem read of R94 takes place in this lc. -/
  | addRow (core addr : Nat) (rowBytes block scaleA scaleB : Bytes) (fmtA fmtB : Nat)
  /-- Numeric events of results written in the lc before (R52): NaN, infinity, saturation. -/
  | num (nan inf sat : Nat)
deriving DecidableEq, Repr

/-- The clusters' memories and units (R25). -/
structure Cluster where
  mem : Mem
  smem : Mem
  rt0 : Tab W64
  rt1 : Tab W64
  s0 : ScalarCore
  s1 : ScalarCore
  a : Tab W32
  vecs : Tab VecCore
  mats : Tab MatCore
  mvq : List Bytes
  vmq : List Bytes
  sb : Tab Score
  land : List LandBuf
  landSeq : Nat
  pos : SlotPos
  cnt : Counters
  late : List (Nat × Late)
  uses : List PortUse
  accId : Nat
  /-- Flawed granules whose correction this lc has counted already (R89). -/
  counted : List Nat
  /-- Local reads of the router made four lc ahead: the lc they are for, and the bytes (R138). -/
  rpipe : List (Nat × Bytes)
  /-- Flawed granules of data memory by local address / 16, and of control memory by offset / 16 (S-mem) or 65,536 +
  offset / 16 (route table): 1 + BIT of R93 when a single bit is wrong, 10 when the flaw is uncorrectable (log entry 7). -/
  upsets : Tab Nat
  ctlUpsets : Tab Nat
  arriveSent : Bool
  landedSent : Bool
  /-- The first lc after the table load of S1 (R117). -/
  s1Busy : Nat
  /-- The word after the last WEIR: the relay jump's target, and the sentinel flag (R118). -/
  resumeMain : Nat
  resumeRelay : Nat
  weirSent : Bool
  /-- The weir at which the cluster has arrived last (R118, R153). -/
  weirNum : Nat
deriving DecidableEq, Repr

/-- A flit on a link (R134, R136): the position whose input it reaches, the input, and the lc. `src` is no part of the
flit: it tells which gate injected it, for the event of R103: 0 none, 256 + ring die, 512 + stack (log entry 66). -/
structure InFlight where
  dst : Nat
  inp : Dir
  due : Nat
  flit : Flit
  src : Nat
deriving DecidableEq, Repr

/-- A gate's schedule and its place in it (R148, R189). -/
structure Gate where
  id : GateId
  bank0 : List W64
  bank1 : List W64
  pos : SlotPos
deriving DecidableEq, Repr

/-! ## Ports and ring dies (11 to 13) -/

/-- PORT_STATUS.STATE (R265). -/
inductive PortSt where
  | off | training | up | retraining | down | ceased
deriving DecidableEq, Repr

/-- What became of a frame whose header has been judged while its body still arrives (R254, R256): it has been discarded, it
is parked, its judgement waits, or it is in progress. Of a frame in progress: the ring die that judged it, the bytes of that
die's landing buffer that it holds, and the PASS descriptors that forward it, as owners (R277). A frame whose sluice the
engine has given up since is detached: it still goes to its unit (R255). -/
inductive HeadFate where
  | dropped | parked | stalled
  | inProgress (die res : Nat) (passes : List Nat)
  | detached (die res unit : Nat) (hostDriven : Bool) (passes : List Nat)
deriving DecidableEq, Repr

/-- One virtual lane (R237 to R242, R265). -/
structure Lane where
  fs : Nat
  fr : Nat
  limit : Nat
  freed : Nat
  occ : Nat
  expect : Nat
  sendSeq : Nat
  /-- Bytes of the frame being assembled (R237). -/
  stream : Bytes
  /-- Discarding up to the next flit with a frame start (R245). -/
  skip : Bool
  /-- The replay of this gap has been requested (R239). -/
  gapAsked : Bool
  /-- An AUDIT frame waiting for FR to reach its FS (R243): FS and limit. -/
  audit : Option (Nat × Nat)
  /-- Audits that the sender owes, oldest first: FS and the limit held at each 65,536th first-sent flit (R243). -/
  audits : List (Nat × Nat)
  /-- The frame whose header has been judged and whose body still arrives: its header and tile header, and its fate. -/
  head : Option (Bytes × HeadFate)
  sealTx : Nat
  sealRx : Option Nat
deriving DecidableEq, Repr

/-- A lane at link-up (R238, R242). -/
def Lane.reset : Lane :=
  { fs := 0, fr := 0, limit := 4096, freed := 0, occ := 0, expect := 0, sendSeq := 0, stream := [], skip := false,
    gapAsked := false, audit := none, audits := [], head := none, sealTx := 0, sealRx := none }

/-- A sealed-mode key slot (R249). -/
structure KeySlot where
  epoch : BitVec 8
  key : Bytes
  saltTx : Bytes
  saltRx : Bytes
deriving DecidableEq, Repr

/-- The nine port counters (R265). -/
structure PortCnt where
  flitBad : W32
  dupFlit : W32
  replays : W32
  retrains : W32
  filterDrop : W32
  frameBad : W32
  sealFail : W32
  carryTx : W32
  carryRx : W32
deriving DecidableEq, Repr

/-- Port counters after cold start or port reset (R265). -/
def PortCnt.reset : PortCnt :=
  { flitBad := 0, dupFlit := 0, replays := 0, retrains := 0, filterDrop := 0, frameBad := 0, sealFail := 0,
    carryTx := 0, carryRx := 0 }

/-- A bulk frame: its virtual lane, and header and body as bytes (R244). -/
structure Frame where
  vl : Nat
  bytes : Bytes
deriving DecidableEq, Repr

/-- A bulk frame posted for sending: lane, bytes not yet in a flit, whether none of it has left, the descriptor it
belongs to, 0 for none (R259), the tiles of that descriptor it carries, and whether they count in CARRY_TX (R301). -/
structure TxFrame where
  vl : Nat
  bytes : Bytes
  fresh : Bool
  owner : Nat
  tiles : Nat
  carry : Bool
deriving DecidableEq, Repr

/-- A flit kept for replay: channel (0–7 lanes, 8 control, 9 for a flit of before the last link-up, which no
acknowledgement can name any more), sequence, bytes (R240), and the frames that end in it: descriptor and tiles. -/
structure Sent where
  ch : Nat
  seq : Nat
  bytes : Bytes
  owners : List (Nat × Nat)
deriving DecidableEq, Repr

/-- One Ehrat port (R250, R265). -/
structure Port where
  st : PortSt
  role : Nat
  bundle : Nat
  member : Nat
  sealedReq : Bool
  digestTx : Bool
  tag : BitVec 16
  epoch : BitVec 8
  partnerId : W64
  partnerPort : Byte
  initSent : Bool
  initRx : Bool
  cnt : PortCnt
  lanes : Tab Lane
  ctlExpect : Nat
  ctlSend : Nat
  ctlGap : Bool
  retry : List Sent
  /-- Bulk frames and control frames posted and not yet placed in a flit (R236). -/
  txq : List TxFrame
  ctlq : List (Nat × Bytes)
  /-- The lane that sent last, for the round robin of R237. -/
  rr : Nat
  /-- The flits that have left the port, oldest first: what its partner sees (log entry 90). -/
  out : List Bytes
  /-- Hall times of the latest replays, and of the last completed retrain (R241). -/
  window : List Nat
  retrained : Option Nat
  /-- The state in which a retrain began, and to which it leads back (R241). -/
  back : PortSt
  inbox : List Frame
  key0 : Option KeySlot
  key1 : Option KeySlot
  digRing : Tab Bytes
  digCount : Nat
deriving DecidableEq, Repr

/-- A port that is off (R265). -/
def Port.reset : Port :=
  { st := .off, role := 0, bundle := 0, member := 0, sealedReq := false, digestTx := false, tag := 0, epoch := 0,
    partnerId := 0, partnerPort := 0, initSent := false, initRx := false, cnt := PortCnt.reset, lanes := [],
    ctlExpect := 0, ctlSend := 0, ctlGap := false, retry := [], txq := [], ctlq := [], rr := 7,
    out := [], window := [], retrained := none, back := .up, inbox := [], key0 := none, key1 := none, digRing := [], digCount := 0 }

/-- STATE of a sluice (R252). -/
inductive SluiceSt where
  | closed | opened | draining | complete
deriving DecidableEq, Repr

/-- A sluice entry (R252) with the landed indices of its bitmap (R254), in rising order. -/
structure Sluice where
  present : Bool
  template : Bool
  openWeir : Nat
  closeWeir : Nat
  marker : Bool
  units : Bool
  vsrc : Nat
  tee : Bool
  host : Bool
  carry : Bool
  trailer : Bool
  st : SluiceSt
  count : Nat
  landed : Nat
  tid : W32
  firstUnit : Nat
  row : Nat
  rowStep : Nat
  bmap : Nat
  version : Nat
  parked : Nat
  bits : List Nat
  /-- Shard record (R286): CHECK, HELD, RERQ, and re-requests per tile in this opening (R279). -/
  check : Nat
  rerq : Nat
  tries : Tab Nat
deriving DecidableEq, Repr

/-- An absent sluice entry. -/
def Sluice.reset : Sluice :=
  { present := false, template := false, openWeir := 0, closeWeir := 0, marker := false, units := false, vsrc := 0,
    tee := false, host := false, carry := false, trailer := false, st := .closed, count := 0, landed := 0, tid := 0,
    firstUnit := 0, row := 0, rowStep := 0, bmap := 0, version := 0, parked := 0, bits := [], check := 0, rerq := 0,
    tries := [] }

/-- A parked frame: the sluice, the port and lane it came from, tile or marker, the bytes that have arrived (R256). -/
structure Parked where
  sluice : Nat
  port : Nat
  vl : Nat
  isMarker : Bool
  bytes : Bytes
deriving DecidableEq, Repr

/-- An accepted cluster-memory tile that waits for its landing slots: sluice, tile index, its rows left as bytes
(R256, R257). -/
structure Waiting where
  sluice : Nat
  index : Nat
  /-- The tile's next landing row, counted from 0. -/
  next : Nat
  rows : List Bytes
  /-- The reservation in the landing buffer, freed when the last row has landed. -/
  size : Nat
deriving DecidableEq, Repr

/-- A held or served SHARD_REQ (R274, R278): the port it came on and its fields; tiles still to send. -/
structure ShardReq where
  port : Nat
  sluice : Nat
  version : Nat
  tid : W32
  first : Nat
  ntiles : Nat
  served : Bool
  left : List Nat
deriving DecidableEq, Repr

/-- The 64-bit counters of a ring die (R265, R286, R414). -/
structure RingCnt where
  sluIndex : W64
  sluLate : W64
  sluBounds : W64
  sluVersion : W64
  sluDup : W64
  sluCrc : W64
  sluShort : W64
  shardReqTx : W64
  shardRerq : W64
  shardServed : W64
  shardStale : W64
  shardChecks : W64
  commitStray : W64
  teeDrop : W64
deriving DecidableEq, Repr

/-- Ring-die counters at configuration (R265). -/
def RingCnt.reset : RingCnt :=
  { sluIndex := 0, sluLate := 0, sluBounds := 0, sluVersion := 0, sluDup := 0, sluCrc := 0, sluShort := 0,
    shardReqTx := 0, shardRerq := 0, shardServed := 0, shardStale := 0, shardChecks := 0, commitStray := 0,
    teeDrop := 0 }

/-- A frame whose judgement waits for landing-buffer space or a parking place (R256). -/
structure Stalled where
  port : Nat
  vl : Nat
  bytes : Bytes
deriving DecidableEq, Repr

/-- A ring die (R252 to R257, R271 to R278, R414). -/
structure Ring where
  cnt : RingCnt
  parked : List Parked
  stalled : List Stalled
  bufUsed : Nat
  waiting : List Waiting
  /-- Extraction buffers 0–15: the bytes extracted and not yet taken (R257). -/
  extract : Tab Bytes
  reqs : List ShardReq
  /-- Complete shard sluices whose check has not ended, in order of completion (R272). -/
  checks : List Nat
deriving DecidableEq, Repr

/-- A ring die with nothing in it. -/
def Ring.reset : Ring :=
  { cnt := RingCnt.reset, parked := [], stalled := [], bufUsed := 0, waiting := [], extract := [], reqs := [],
    checks := [] }

/-- A transfer-queue descriptor (R258). -/
structure Desc where
  kind : Nat
  srcx : Bool
  weirStart : Bool
  vl : Nat
  tag : W32
  count : Nat
  src : Nat
  dsl : Nat
  dfirst : Nat
  dunit : Nat
  home : Nat
  startWeir : Nat
  tid : W32
  fmt : Nat
  shape : Nat
  trb : Nat
  trow : Nat
  tcol : Nat
  host : Bool
  /-- The bytes kept the rules of R258 and R259; a manifest's always do, or CONFIGURE fails (R262). -/
  ok : Bool
  /-- Post number of a host descriptor in its queue (R260, R261). -/
  no : Nat
deriving DecidableEq, Repr

/-- A started descriptor: what it is, its start number in its queue, tiles done, frames sent, its first READ_ID, tile
indices written or passed, the bytes sent so far on an OUTLET bundle (R259, R282). -/
structure Running where
  desc : Desc
  no : Nat
  done : Nat
  sent : Nat
  readId : Nat
  written : List Nat
  /-- Failed CRCs of a FETCH position, and the READ_IDs of its re-requests with their tile index (R259). -/
  tries : Tab Nat
  rereads : List (Nat × Nat)
  sentBytes : Bytes
  /-- Lane tiles taken for the next wire tile of a CARRY (R297). -/
  lanes : List Bytes
deriving DecidableEq, Repr

/-- A transfer queue (R260 to R265). -/
structure Queue where
  manifest : Bool
  cring : Nat
  /-- The prewritten list of a manifest queue, or the posted descriptors of a host queue that have not started. -/
  descs : List Desc
  /-- Place of the list's first descriptor among the ring die's prewritten descriptors (R265). -/
  first : Nat
  /-- Next start index in the prewritten list. -/
  next : Nat
  running : List Running
  started : Nat
  /-- `started` when the last run began: what started before it is not of this run (R260, R261). -/
  base : Nat
  completions : Nat
  /-- Completions counted before the last configuration (R265). -/
  cleared : Nat
  /-- Entries written to the completion ring since then (R407). -/
  entries : Nat
  dup : W32
  /-- The last 4,096 completed tags with their start numbers, latest first (R261, R264). -/
  recent : List (W32 × Nat)
deriving DecidableEq, Repr

/-- An idle queue. -/
def Queue.reset : Queue :=
  { manifest := false, cring := 0, descs := [], first := 0, next := 0, running := [], started := 0, base := 0,
    completions := 0, cleared := 0, entries := 0, dup := 0, recent := [] }

/-- An outlet seal of the run (R282): bundle, TID, DIGEST. -/
structure Seal where
  bundle : Nat
  tid : W32
  digest : Bytes
deriving DecidableEq, Repr

/-- A commit record sent (R283, R284). -/
structure Commit where
  bundle : Nat
  version : Nat
  seq : Nat
  digest16 : Bytes
  final : Bool
  acked : Bool
deriving DecidableEq, Repr

/-! ## Stacks and tier engine (10) -/

/-- A map entry (R214). -/
structure MapEntry where
  res : Bool
  dirty : Bool
  acct : Nat
  stack : Nat
  slot : Nat
  htier : Nat
  hacct : Nat
  loc : Nat
deriving DecidableEq, Repr

/-- A cleared map entry (R214). -/
def MapEntry.reset : MapEntry :=
  { res := false, dirty := false, acct := 0, stack := 0, slot := 0, htier := 0, hacct := 0, loc := 0 }

/-- A quota account (R215, R216). -/
structure Account where
  limit : Nat
  used : Nat
  hostAcc : Bool
  bundle : Nat
  base : Nat
deriving DecidableEq, Repr

/-- A cleared account. -/
def Account.reset : Account := { limit := 0, used := 0, hostAcc := false, bundle := 0, base := 0 }

/-- A migration entry (R218). -/
structure MigEntry where
  op : Nat
  htier : Nat
  acct : Nat
  count : Nat
  unit : Nat
  loc : Nat
deriving DecidableEq, Repr

/-- STATE of a list (R231). -/
inductive ListSt where
  | idle | queued | executing | complete | stopped
deriving DecidableEq, Repr

/-- What MIG_STATUS and class 0x6 unit 2 show of a list (R231, R340). -/
structure ListRec where
  st : ListSt
  next : Nat
  cause : Nat
  unit : Nat
deriving DecidableEq, Repr

/-- An idle list. -/
def ListRec.reset : ListRec := { st := .idle, next := 0, cause := 0, unit := 0 }

/-- A manifest migration list (R217). -/
structure MigList where
  list : Nat
  startWeir : Nat
  entries : List MigEntry
deriving DecidableEq, Repr

/-- A queued instance of a list (R217, R219): entries left from entry `next` on, units of the first of them done, and
whether it started in the current run. -/
structure MigInst where
  list : Nat
  next : Nat
  done : Nat
  entries : List MigEntry
  thisRun : Bool
  /-- Answers with a failed CRC for the unit in hand (R218, R259). -/
  tries : Nat
deriving DecidableEq, Repr

/-- A staging or extraction entry (R221). -/
structure StageEnt where
  unit : Nat
  count : Nat
  trailer : Bool
  mode : Nat
  trows : Nat
  amem : Bool
  row : Nat
  rowStep : Nat
  tid : W32
  fmt : Nat
  shape : Nat
  trow : Nat
  tcol : Nat
  trb : Nat
deriving DecidableEq, Repr

/-- A staging (dir false) or extraction list of a stack controller and its progress (R221 to R223, R231). -/
structure StageList where
  extraction : Bool
  startWeir : Nat
  entries : List StageEnt
  st : ListSt
  /-- Tiles read or written so far, over all entries. -/
  done : Nat
  total : Nat
  /-- Rows in the injection buffer (key MEM, ROW, bytes), or the bytes extracted (R222, R223). -/
  rows : List (Bool × Nat × Bytes)
  rowsRead : Nat
  bytes : Bytes
deriving DecidableEq, Repr

/-- A lender session (R228). -/
structure Lend where
  ports : Nat
  tag : BitVec 16
  epoch : BitVec 8
  first : Nat
  count : Nat
deriving DecidableEq, Repr

/-- A write to a stack slot that has started (R224): the extraction list whose oldest waiting tile it writes, and the STEP
that a stored tile takes as its version (R223). -/
structure SlotWrite where
  list : Nat
  step : Nat
deriving DecidableEq, Repr

/-- The tier engine and its registers (R216, R230, R231). -/
structure Tier where
  map : Tab MapEntry
  accts : Tab Account
  inUse : Nat
  migs : List MigList
  recs : Tab ListRec
  manQ : List MigInst
  hostQ : List MigInst
  /-- The queue served last, with true for the host's (R219). -/
  served : Option Bool
  stages : Tab StageList
  /-- The writes of complete extraction tiles that have started, in the order in which the tiles were complete (R224). -/
  writes : List SlotWrite
  lend : Option Lend
  holdMig : Nat
  holdStg : Nat
  drops : W32
  poison : W32
  eccStack : Nat
  eccAddr : Nat
  eccCount : W32
  stackEcc : Tab W32
deriving DecidableEq, Repr

/-! ## The whole -/

/-- A result of a read or event that leaves the engine, beside the registers: none is modelled apart from the
frames posted to ports and the fields of Cxl and Mailbox. -/
structure State where
  pending : List Instr
  freeCount : Nat
  lc : Nat
  lastRelease : Nat
  power : Power
  heat : Heat
  hall : Hall
  dev : Dev
  mbx : Mailbox
  cxl : Cxl
  safe : SafeReg
  ids : Identity
  flash : Mem
  map : MapReg
  logs : Logs
  decl : Option LoadDecl
  resident : Option Resident
  image : Option Image
  runBlk : RunBlock
  weir : WeirCtl
  clusters : Tab Cluster
  wires : List InFlight
  gates : List Gate
  ports : Tab Port
  rings : Tab Ring
  sluices : Tab Sluice
  queues : Tab Queue
  seals : List Seal
  commits : List Commit
  readIds : Nat
  stackMem : Mem
  /-- Flawed stack granules by (stack × 2^37 + address) / 16: 1 corrected, 2 uncorrectable (log entry 7). -/
  stackUpsets : Tab Nat
  tier : Tier
deriving DecidableEq, Repr

/-! ## Reset -/

/-- An absent feed. -/
def FeedReg.reset : FeedReg := { mv := 0, ma := 0, watts := 0, st := .absent }

/-- Unpowered (log entry 5). -/
def Power.reset : Power :=
  { pwrEn := false, flashPgm := false, held := false, on := false, pgood := false, fault := false,
    feedA := FeedReg.reset, feedB := FeedReg.reset, refPresent := false, hallRefOk := false, hallRefBad := false,
    flashVcc := false, emptyCages := [] }

/-- No readings, REQ armed (R334, R387). -/
def Heat.reset : Heat :=
  { fields := [], sensors := [], req := false, drop := false, armed := true, hot := false, history := [],
    histCount := 0 }

/-- TIME_ registers at reset (R333); the nominal rate word, 10 ns per module-reference cycle (log entry 12). -/
def Hall.reset : Hall :=
  { ns := 0, rate := 42949672960, slew := 0, slewLeft := 0, frac := 0, lastErr := 0, frames := 0, good := 0, bad := 0, lock := false,
    offsetSet := false, ref10 := false, frameErr := 0, offset := 0, up := 0, step := 0 }

/-- DEV_ registers at reset (R330 to R332). -/
def Dev.reset : Dev :=
  { st := .coldStart, startStep := 0, startCause := 0, ident := false, guard := false, physId := 0, grade := 0,
    loadOpen := false, loadSize := 0 }

/-- BG_RESULT before any background command. -/
def BgResult.reset : BgResult :=
  { dstatus := .ok, check := 0, opcode := 0, sect := 0, offset := 0, x := 0, y := 0, value := 0, quote := [] }

/-- An idle mailbox. -/
def Mailbox.reset : Mailbox :=
  { rc := 0, dstatus := .ok, check := 0, out := [], bg := none, beside := none, bgRes := BgResult.reset, partPatch := none,
    opcode := 0 }

/-- No link (R322). -/
def LinkMode.none : LinkMode := { lanes := 0, rate := 0, flit := 0 }

/-- An MSI-X entry at reset: masked (log entry 91). -/
def MsixEntry.reset : MsixEntry := { addr := 0, data := 0, masked := true }

/-- The CXL port with the link down. -/
def Cxl.reset : Cxl :=
  { link := false, mode := LinkMode.none, bar0 := 0, ide := false, session := false, ideKeyed := false, memIde := false,
    memKeyed := false, msixTable := List.replicate 4 MsixEntry.reset, msixPending := [false, false, false, false], committed := false, decErr := false,
    timestamp := 0, timestampAt := 0, msix := [0, 0, 0, 0], regOut := 0, hdmData := [], hdmPoison := false, spdmAnswers := 0 }

/-- SAFE_STATUS and SAFE_TIME at reset (R335). -/
def SafeReg.reset : SafeReg := { safe := false, cause := 0, place := 0, loc := 0, time := 0, frozen := 0 }

/-- No identity. -/
def Identity.reset : Identity :=
  { tag := 0, epoch := 0, rank := 0, stage := 0, n := 0, secret := [], pk := [], idHash := [], linkPub := [],
    policies := [] }

/-- Empty logs (R367). -/
def Logs.reset : Logs :=
  { events := [], eventCount := 0, weirs := [], weirCount := 0, digests := [], digestCount := 0 }

/-- No map: it is built in cold-start step 8 (R34). -/
def MapReg.reset : MapReg := { built := false, marks := [], lanes := [], failed := [], spare := [] }

/-- No run block. -/
def RunBlock.reset : RunBlock := { step := 0, seeds := [0, 0, 0, 0], dataPos := 0, gear := 0, startTime := 0 }

/-- WEIR_ registers at reset (R167). -/
def WeirCtl.reset : WeirCtl :=
  { await := 0, phase := .noRun, arrived := [], landed := [], latched := [], deferred := [], due := none,
    decided := false, relayPosted := false, eligible := false, digsDone := 0, last := 0, lastIndex := 0, lastLc := 0, lastRank := 0,
    seg := false, relLc := 0, relIx := 0, resumes := [], gear := 0, nextGear := 0, hostRecs := [], hold := false, relayDis := false,
    holdTotal := 0, relays := 0 }

/-- A scalar core at configuration: stopped, registers zero (R109). -/
def ScalarCore.reset : ScalarCore := { g := [], pc := 0, st := .stopped, rets := [], loops := [], ready := 0 }

/-- Tile state cleared. -/
def TileState.reset : TileState :=
  { s := 0, tid := 0, row := 0, col := 0, fmt := 0, words := 0, inProg := false }

/-- Generator state cleared (R109). -/
def GenState.reset : GenState := { seed := 0, tid := 0, step := 0, ibase := 0 }

/-- A table unit never loaded (log entry 4). -/
def TableUnit.reset : TableUnit := { img := [], loadFrom := 0, loadTo := 0 }

/-- A vector core at configuration (R109). -/
def VecCore.reset : VecCore :=
  { v := [], m := [], dig := 0, tile := TileState.reset, gen := GenState.reset, pc := 0, st := .stopped, repLeft := 0,
    repStart := 0, repStop := 0, repIter := 0, fwd := TableUnit.reset, der := TableUnit.reset, ready := 0 }

/-- A matrix core at configuration. -/
def MatCore.reset : MatCore :=
  { free := 0, desc := 0, subB := 0, block := [], tbuf := [], out := [], ksum := [], tokens := 0, opened := false, op := none }

/-- An idle scoreboard entry. -/
def Score.reset : Score :=
  { st := .idle, arm := 0, rel := 0, amem := false, first := 0, rows := 0, expect := 0, gated := false, seg := 0,
    landed := 0 }

/-- ROUTE_STATE at reset (R145). -/
def SlotPos.reset : SlotPos :=
  { active := false, bank := false, hold := false, run := false, cur0 := 0, cur1 := 0, entry := 0, j := 0, holdStart := 0,
    segLc := 0, nextLc := 0 }

/-- Cleared counters. -/
def Counters.reset : Counters :=
  { numNan := 0, numInf := 0, numSat := 0, scReset := 0, digAbandon := 0, meshNan := 0, meshInf := 0, eccCorr := 0,
    eccLast := 0 }

/-- A cluster with zeroed memories and registers (R188). -/
def Cluster.reset : Cluster :=
  { mem := [], smem := [], rt0 := [], rt1 := [], s0 := ScalarCore.reset, s1 := ScalarCore.reset, a := [], vecs := [],
    mats := [], mvq := [], vmq := [], sb := [], land := [], landSeq := 0, pos := SlotPos.reset, cnt := Counters.reset,
    late := [], uses := [], accId := 0, counted := [], rpipe := [], upsets := [], ctlUpsets := [], arriveSent := false, landedSent := false,
    s1Busy := 0, resumeMain := 0, resumeRelay := 0, weirSent := false, weirNum := 0 }

/-- The tier engine at cold start (R214). -/
def Tier.reset : Tier :=
  { map := [], accts := [], inUse := 0, migs := [], recs := [], manQ := [], hostQ := [], served := none, stages := [], writes := [], lend := none,
    holdMig := 0, holdStg := 0, drops := 0, poison := 0, eccStack := 0, eccAddr := 0, eccCount := 0, stackEcc := [] }

/-- The engine before its first cold start (log entry 5). -/
def State.reset : State :=
  { pending := [], freeCount := 0, lc := 0, lastRelease := 0, power := Power.reset, heat := Heat.reset,
    hall := Hall.reset, dev := Dev.reset, mbx := Mailbox.reset, cxl := Cxl.reset, safe := SafeReg.reset,
    ids := Identity.reset, flash := [], map := MapReg.reset, logs := Logs.reset, decl := none, resident := none,
    image := none, runBlk := RunBlock.reset, weir := WeirCtl.reset, clusters := [], wires := [], gates := [],
    ports := [], rings := [], sluices := [], queues := [], seals := [], commits := [], readIds := 0, stackMem := [],
    stackUpsets := [], tier := Tier.reset }

/-! ## Why a step can stop -/

/-- The model's faults. -/
inductive Fault where
  /-- Raised by every command that names a place the engine does not have: a vacant cluster position (R22), a
  vector core above 5, a port above 23, a ring die above 11, a stack above 15, a field above 93, a gate that does
  not exist. Safe: no such command can reach the engine. -/
  | noSuchPlace
deriving DecidableEq, Repr

/-- The model's refusals. -/
inductive Refusal where
  /-- Raised by Machine/Dispatch.lean alone, for a command that has no meaning yet. Safe. -/
  | notModelled (mnemonic : String)
deriving DecidableEq, Repr

end Sys2Proof.Machine
end

