-- ==== Sys2Proof/Machine/Geometry.lean ====
section
/-! DEFINITION. The cluster grid, the fields, the stack fields and die sites, the mesh links with their latencies,
and the gates (R19 to R25, R133, R136, R147). -/

namespace Sys2Proof.Machine

/-- Fields in each field row (R19). -/
def rowCount : List Nat := [6, 9, 10, 11, 11, 11, 11, 10, 9, 6]

/-- First field number of each field row (R21). -/
def rowStart : List Nat := [0, 6, 15, 25, 36, 47, 58, 69, 79, 88]

/-- Whether a field is a rim field: all of rows 0 and 9, and both ends of the others (R19). -/
def isRim (f : Nat) : Bool :=
  f < 6 || (88 ≤ f && f < 94) || [6, 14, 15, 24, 25, 35, 36, 46, 47, 57, 58, 68, 69, 78, 79, 87].contains f

/-- Cluster number of a position (R21). -/
def cnum (x y : Nat) : Nat := y * 352 + x

/-- Grid column of a cluster number. -/
def cx (c : Nat) : Nat := c % 352

/-- Grid row of a cluster number. -/
def cy (c : Nat) : Nat := c / 352

/-- The procedure of R21 without its last test: field and field-local coordinates, port blocks included. -/
def fieldOf (x y : Nat) : Option (Nat × Nat × Nat) :=
  let r := y / 20
  let n := rowCount.getD r 0
  let x0 := 16 * (11 - n)
  if 200 ≤ y ∨ x < x0 ∨ x0 + 32 * n ≤ x then none
  else some (rowStart.getD r 0 + (x - x0) / 32, (x - x0) % 32, y % 20)

/-- Field and field-local coordinates of a position that holds a cluster; none at a vacant position (R21, R22). -/
def locate (x y : Nat) : Option (Nat × Nat × Nat) :=
  match fieldOf x y with
  | none => none
  | some (f, u, v) => if isRim f && decide (12 ≤ v) then none else some (f, u, v)

/-- Whether a cluster number names a cluster (R22). -/
def isCluster (c : Nat) : Bool := decide (c < 70400) && (locate (cx c) (cy c)).isSome

/-- The field of a cluster; 94 at a vacant position. -/
def fieldAt (c : Nat) : Nat :=
  match locate (cx c) (cy c) with
  | some (f, _, _) => f
  | none => 94

/-- The field row of a field (R19). -/
def fieldRow (f : Nat) : Nat :=
  if f < 6 then 0 else if f < 15 then 1 else if f < 25 then 2 else if f < 36 then 3 else if f < 47 then 4
  else if f < 58 then 5 else if f < 69 then 6 else if f < 79 then 7 else if f < 88 then 8 else 9

/-- Grid coordinates of a field's origin (R19). -/
def fieldOrigin (f : Nat) : Nat × Nat :=
  let r := fieldRow f
  (16 * (11 - rowCount.getD r 0) + 32 * (f - rowStart.getD r 0), 20 * r)

/-- Cluster number at field-local coordinates. -/
def clusterIn (f u v : Nat) : Nat := cnum ((fieldOrigin f).1 + u) ((fieldOrigin f).2 + v)

/-- The field-local rows that hold clusters (R20). -/
def fieldHeight (f : Nat) : Nat := if isRim f then 12 else 20

/-- Whether field-local coordinates lie in a field's cluster area (R20). -/
def inField (f u v : Nat) : Bool := decide (f < 94) && decide (u < 32) && decide (v < fieldHeight f)

/-- The field of each stack (R23). -/
def stackFields : List Nat := [10, 18, 21, 27, 30, 33, 39, 43, 50, 54, 60, 63, 66, 72, 75, 83]

/-- The field above each ring die (R24). -/
def dieFields : List Nat := [1, 4, 6, 14, 25, 35, 47, 57, 79, 87, 89, 92]

/-- The opposite direction. -/
def opp : Dir → Dir
  | .north => .south
  | .east => .west
  | .south => .north
  | .west => .east

/-- Number of a direction, as in lane-fault entries (R26). -/
def dirNum : Dir → Nat
  | .north => 0
  | .east => 1
  | .south => 2
  | .west => 3

/-- The position that a link from cluster `c` in a direction reaches: the neighbour; across a rim field's port
block, the first cluster of the field row below or above (R133). -/
def neighbour (c : Nat) (d : Dir) : Option Nat :=
  let x := cx c
  let y := cy c
  match locate x y with
  | none => none
  | some (f, _, v) =>
    match d with
    | .east => if (locate (x + 1) y).isSome && decide (x + 1 < 352) then some (c + 1) else none
    | .west => if 0 < x ∧ (locate (x - 1) y).isSome then some (c - 1) else none
    | .south =>
      let y' := if isRim f && decide (v = 11) then 20 * (y / 20) + 20 else y + 1
      if y' < 200 ∧ (locate x y').isSome then some (cnum x y') else none
    | .north =>
      if 0 < y ∧ (locate x (y - 1)).isSome then some (c - 352)
      else if y % 20 = 0 ∧ 20 ≤ y ∧ (locate x (y - 9)).isSome
          ∧ (fieldOf x (y - 1)).any (fun g => isRim g.1) then some (cnum x (y - 9))
      else none

/-- Latency of a link in lc (R136): 2 within a field, 6 between fields, 12 through a port block. -/
def linkLatency (c d : Nat) : Nat :=
  if cx c = cx d ∧ cy c + 1 < cy d ∨ cx c = cx d ∧ cy d + 1 < cy c then 12
  else if fieldAt c = fieldAt d then 2 else 6

/-- Whether the south side of a cluster faces a ring die's port block that no cluster lies beyond (R147). -/
def gateOnly (c : Nat) : Bool :=
  match locate (cx c) (cy c) with
  | some (f, _, v) => [79, 87, 89, 92].contains f && decide (v = 11) && (neighbour c .south).isNone
  | none => false

/-- Where an output leads: the position whose input the flit reaches, and the latency. A link that ends at a gate
leads to the vacant position below it. -/
def outLink (c : Nat) (d : Dir) : Option (Nat × Nat) :=
  match neighbour c d with
  | some n => some (n, linkLatency c n)
  | none => if d = .south ∧ gateOnly c then some (c + 352, 12) else none

/-- Whether an input of a cluster is present: a link, or a gate that faces it (R133, R147). -/
def inPresent (c : Nat) (d : Dir) : Bool := (outLink c d).isSome

/-- The stack whose field is `f`. -/
def stackOfField (f : Nat) : Option Nat := stackFields.findIdx? (· == f)

/-- The field that holds a gate (R147). -/
def gateField (g : GateId) : Nat :=
  if g.stackGate then stackFields.getD g.site 94 else dieFields.getD g.site 94

/-- Whether a gate exists (R147). -/
def gateExists (g : GateId) : Bool :=
  decide (g.link < 32) && (if g.stackGate then decide (g.site < 16) else decide (g.site < 12))

/-- The cluster on the north face of a gate: v = 11 above a port block, v = 9 at a stack field (R147, R148). -/
def gateNorth (g : GateId) : Nat := clusterIn (gateField g) g.link (if g.stackGate then 9 else 11)

/-- The position on the south face of a gate. -/
def gateSouth (g : GateId) : Nat :=
  match outLink (gateNorth g) .south with
  | some (d, _) => d
  | none => (gateNorth g) + 352

/-- Lc between a gate and the routers on its faces (R147). -/
def gateDelay (g : GateId) : Nat := if g.stackGate then 1 else 6

/-- Core-number range of each class (R25). -/
inductive CoreClass where
  | f | x | w
deriving DecidableEq, Repr

/-- The class of a matrix core (R25). -/
def coreClass (core : Nat) : CoreClass := if core < 4 then .f else if core < 8 then .x else .w

/-- Gang-local index of a cluster (R132). -/
def gangIndex (c : Nat) : Nat :=
  match locate (cx c) (cy c) with
  | some (_, u, v) => (v % 10) * 16 + u % 16
  | none => 0

/-- The leader of a cluster's gang: its cluster at the smallest u and v (R132). -/
def gangLeader (c : Nat) : Nat :=
  match locate (cx c) (cy c) with
  | some (f, u, v) => clusterIn f (u / 16 * 16) (v / 10 * 10)
  | none => c

end Sys2Proof.Machine
end

