-- ==== Sys2Proof/Machine/Ops.lean ====
section
/-! DEFINITION. The named operations over the engine's state: access to clusters, cores and units, free values,
hall time, the event log, interrupts, and the records of fatal faults. -/

namespace Sys2Proof.Machine

/-- The outcome of every command. -/
abbrev Out := Host.Outcome State Fault Refusal

/-- Run an effect when the places a command names exist (R22). -/
def onPlace (ok : Bool) (t : State) : Out := if ok then .next t else .fault .noSuchPlace

/-! ## Free values -/

/-- Draw a value the spec does not state (log entry 6). -/
def freeVal (w : Nat) (s : State) : BitVec w × State :=
  (Config.free w s.freeCount, { s with freeCount := s.freeCount + 1 })

/-! ## Clusters and their parts -/

/-- The cluster at a cluster number. -/
def clusterAt (s : State) (c : Nat) : Cluster := Tab.get Cluster.reset s.clusters c

/-- Put a cluster back. -/
def setCluster (c : Nat) (k : Cluster) (s : State) : State :=
  { s with clusters := Tab.set Cluster.reset s.clusters c k }

/-- Change a cluster. -/
def updCluster (c : Nat) (f : Cluster → Cluster) (s : State) : State := setCluster c (f (clusterAt s c)) s

/-- A scalar core of a cluster. -/
def scalarCore (k : Sc) (cl : Cluster) : ScalarCore :=
  match k with
  | .s0 => cl.s0
  | .s1 => cl.s1

/-- Put a scalar core back. -/
def setScalar (k : Sc) (x : ScalarCore) (cl : Cluster) : Cluster :=
  match k with
  | .s0 => { cl with s0 := x }
  | .s1 => { cl with s1 := x }

/-- A vector core of a cluster. -/
def vecCore (v : Nat) (cl : Cluster) : VecCore := Tab.get VecCore.reset cl.vecs v

/-- Put a vector core back. -/
def setVec (v : Nat) (x : VecCore) (cl : Cluster) : Cluster := { cl with vecs := Tab.set VecCore.reset cl.vecs v x }

/-- A matrix core of a cluster. -/
def matCore (m : Nat) (cl : Cluster) : MatCore := Tab.get MatCore.reset cl.mats m

/-- Put a matrix core back. -/
def setMat (m : Nat) (x : MatCore) (cl : Cluster) : Cluster := { cl with mats := Tab.set MatCore.reset cl.mats m x }

/-- Change the numeric-event counters (R52, R156). -/
def count (f : Counters → Counters) (cl : Cluster) : Cluster := { cl with cnt := f cl.cnt }

/-! ## Ports, ring dies, sluices, queues -/

/-- A port. -/
def portAt (s : State) (p : Nat) : Port := Tab.get Port.reset s.ports p

/-- Put a port back. -/
def setPort (p : Nat) (x : Port) (s : State) : State := { s with ports := Tab.set Port.reset s.ports p x }

/-- Change a port. -/
def updPort (p : Nat) (f : Port → Port) (s : State) : State := setPort p (f (portAt s p)) s

/-- A ring die. -/
def ringAt (s : State) (d : Nat) : Ring := Tab.get Ring.reset s.rings d

/-- Change a ring die. -/
def updRing (d : Nat) (f : Ring → Ring) (s : State) : State :=
  { s with rings := Tab.set Ring.reset s.rings d (f (ringAt s d)) }

/-- Key of sluice `i` of ring die `d` (R252). -/
def sluiceKey (d i : Nat) : Nat := d * 32768 + i

/-- A sluice entry by key. -/
def sluiceAt (s : State) (k : Nat) : Sluice := Tab.get Sluice.reset s.sluices k

/-- Change a sluice entry. -/
def updSluice (k : Nat) (f : Sluice → Sluice) (s : State) : State :=
  { s with sluices := Tab.set Sluice.reset s.sluices k (f (sluiceAt s k)) }

/-- A transfer queue, TQ port × 1,024 + queue (R260). -/
def queueAt (s : State) (q : Nat) : Queue := Tab.get Queue.reset s.queues q

/-- Change a transfer queue. -/
def updQueue (q : Nat) (f : Queue → Queue) (s : State) : State :=
  { s with queues := Tab.set Queue.reset s.queues q (f (queueAt s q)) }

/-- Whether an access of the host reaches the engine's registers and mailbox: it is powered and the CXL link is up (R322;
log entry 11). -/
def mailboxUp (s : State) : Bool := s.power.on && s.cxl.link

/-- The mode the host port trains to: at least ×4 and 32 GT/s, at most ×8 and 64 GT/s; 68-byte flits only at 32 GT/s with a
partner that has no 256-byte flits (R322). -/
def hostMode (c : Channel) : Option LinkMode :=
  if c.lanes < 4 ∨ c.rate < 32 then none
  else
    some { lanes := if c.lanes < 8 then 4 else 8, rate := if c.rate < 64 then 32 else 64,
           flit := if c.rate < 64 ∧ c.flits256 = false then 68 else 256 }

/-- The host port trains, or no CXL protocol is enabled (R322). -/
def trainHost (c : Channel) (s : State) : State :=
  { s with cxl := { s.cxl with link := (hostMode c).isSome, mode := (hostMode c).getD LinkMode.none } }

/-! ## Hall time, interrupts, event log -/

/-- Hall time in ns (R333, R377). -/
def nowNs (s : State) : Nat := s.hall.ns / 2 ^ 32

/-- ns since hub release (R367). -/
def upNs (s : State) : Nat := s.hall.up / (84 * 2 ^ 32)

/-- TIME of an event-log record: hall time while TLOCK is 1, else ns since hub release (R367). -/
def eventTime (s : State) : Nat := if s.hall.lock then nowNs s else upNs s

/-- Raise MSI-X vector `v`; a vector masked in the table stays pending (R328; log entry 91). -/
def raiseMsix (v : Nat) (s : State) : State :=
  { s with cxl := { s.cxl with
      msix := setAt s.cxl.msix v (s.cxl.msix.getD v 0 + 1),
      msixPending := setAt s.cxl.msixPending v (s.cxl.msixTable.getD v MsixEntry.reset).masked } }

/-- The record an index of an empty event log reads as. -/
def EventRec.zero : EventRec :=
  { time := 0, code := 0, sev := 0, tlock := false, place := 0, loc := 0, data := [] }

/-- Size of the event log in records (R367). -/
def eventRing : Nat := 16384

/-- Append an event-log record (R367, R368). -/
def logEvent (code sev place loc : Nat) (data : Bytes) (s : State) : State :=
  let r : EventRec :=
    { time := BitVec.ofNat 64 (eventTime s), code := BitVec.ofNat 16 code, sev := BitVec.ofNat 8 sev, tlock := s.hall.lock,
      place := BitVec.ofNat 4 place, loc := BitVec.ofNat 28 loc, data := padB data 16 }
  { s with logs := { s.logs with
      events := Tab.set EventRec.zero s.logs.events (s.logs.eventCount % eventRing) r,
      eventCount := s.logs.eventCount + 1 } }

/-! ## Sensors as numbers (R386, R393) -/

/-- Number of a sensor: 752 junctions by field, then 16 stacks, 12 ring dies, the hub, 94 field supplies, four coolant
sensors. -/
def sensorNumber : Sensor → Nat
  | .junction f i => 8 * f + i
  | .stack n => 752 + n
  | .ringDie k => 768 + k
  | .hub => 780
  | .supply f => 781 + f
  | .coolant i => 875 + i

/-- Last reading of a sensor, in 0.25 °C. -/
def quarterAt (s : State) (k : Sensor) : Int := Tab.get 0 s.heat.sensors (sensorNumber k)

/-- Whole degrees of a reading in a byte; below zero reads as zero. -/
def degrees (q : Int) : Nat := min 255 (q / 4).toNat

/-- The hottest junction of a field, in 0.25 °C. -/
def fieldQuarter (s : State) (f : Nat) : Int :=
  (List.range 7).foldl (fun m i => max m (quarterAt s (.junction f (i + 1)))) (quarterAt s (.junction f 0))

/-- The field of the hottest junction, the lowest-numbered of several (R334). -/
def hottestField (s : State) : Nat :=
  (List.range 94).foldl (fun b f => if fieldQuarter s b < fieldQuarter s f then f else b) 0

/-! ## Field supplies (R384, R393) -/

/-- Measure a field's supply: its voltage lies within ±1.5 % of VSET and its current below the limit of 450 A, and where in
these ranges the spec does not fix (R384; log entry 49). -/
def measureField (s : State) (f : Nat) : State :=
  let vset := (Tab.get FieldReg.reset s.heat.fields f).vset
  let lo := (vset * 985 + 999) / 1000
  let (mv, s) := freeVal 16 s
  let (ma, s) := freeVal 32 s
  { s with heat := { s.heat with
      fields := Tab.upd FieldReg.reset s.heat.fields f (fun r =>
        { r with mv := lo + mv.toNat % (vset * 1015 / 1000 - lo + 1), ma := ma.toNat % 450000 }) } }

/-! ## Map marks -/

/-- Code of a bad cluster in the merged map (R28). -/
def markBad : BitVec 2 := 2
/-- Code of a suspect cluster (R28). -/
def markSuspect : BitVec 2 := 3

/-- Whether a cluster position is good in the merged map (R28): it is built and the cluster is not marked. -/
def isGood (s : State) (c : Nat) : Bool := s.map.built && isCluster c && Tab.get 0 s.map.marks c == 0

/-- The current good-cluster count (R31). -/
def goodCount (s : State) : Nat := if s.map.built then 52992 - s.map.marks.length else 0

/-- Set a cluster to suspect, whatever it was (R30), once the merged map is built. -/
def suspect (c : Nat) (s : State) : State :=
  if s.map.built && isCluster c then { s with map := { s.map with marks := Tab.set 0 s.map.marks c markSuspect } } else s

/-! ## Fatal faults -/

/-- Place codes of SAFE_STATUS.WHERE (R335). -/
def atCluster : Nat := 1
def atRing : Nat := 2
def atStack : Nat := 3
def atField : Nat := 4
def atPort : Nat := 5
def atWeir : Nat := 6
def atHub : Nat := 7
def atTier : Nat := 8

/-- A fatal fault: cause (R335), place and location. `detail` is the second word of the event's DATA (R367): what R95,
R103, R155, R165 and R220 have the event log name, coded as log entry 66 says. -/
structure FaultRec where
  cause : Nat
  place : Nat
  loc : Nat
  detail : Nat
deriving DecidableEq, Repr

/-- Safe-state causes (R335). -/
def cHostFreeze : Nat := 0x01
def cWeirDeadline : Nat := 0x02
def cCollision : Nat := 0x03
def cEccUncorr : Nat := 0x04
def cAddress : Nat := 0x05
def cScoreboard : Nat := 0x06
def cLanding : Nat := 0x07
def cFetch : Nat := 0x08
def cDescriptor : Nat := 0x09
def cCarryScale : Nat := 0x0A
def cSentinel : Nat := 0x0B
def cMeshLink : Nat := 0x0C
def cMeshFlit : Nat := 0x0D
def cWeirToken : Nat := 0x0E
def cTierAudit : Nat := 0x0F
def cTierList : Nat := 0x10
def cTierOwnership : Nat := 0x11
def cTierCrc : Nat := 0x12
def cTierExtract : Nat := 0x13
def cCreditAudit : Nat := 0x14
def cSluiceAudit : Nat := 0x15
def cTqError : Nat := 0x16
def cRingExtract : Nat := 0x17
def cShardRefused : Nat := 0x18
def cShardDigest : Nat := 0x19
def cShardCrc : Nat := 0x1A
def cVersionMismatch : Nat := 0x1B
def cCommitReject : Nat := 0x1C
def cCarryCrc : Nat := 0x1D
def cCarryFormat : Nat := 0x1E
def cCarryCount : Nat := 0x1F
def cThermalTrip : Nat := 0x20
def cSupplyFault : Nat := 0x21
def cHubInternal : Nat := 0x22

/-- A fault attributed to a cluster. -/
def clusterFault (cause c detail : Nat) : FaultRec := { cause := cause, place := atCluster, loc := c, detail := detail }

/-- Whether a fault sets its cluster to suspect (R30): every cluster fault but a link error or stray flit (R155). -/
def FaultRec.suspects (f : FaultRec) : Bool := f.place == atCluster && f.cause != cMeshLink

/-- Log a fault as event 0x0300 + cause with the lc offset and its detail (R367, R397), and mark its cluster (R30). -/
def noteFault (f : FaultRec) (s : State) : State :=
  logEvent (0x0300 + f.cause) 2 f.place f.loc (toLe 8 (s.lc - s.lastRelease) ++ toLe 8 f.detail)
    (if f.suspects then suspect f.loc s else s)

end Sys2Proof.Machine
end

