-- ==== Sys2Proof/Machine/ClusterMem.lean ====
section
/-! DEFINITION. A cluster's memories in one lc: widths and alignment, banks, the correction stage, the scoreboard
check at issue, and the commit of what an lc has written (R85 to R106). -/

namespace Sys2Proof.Machine

/-- A cluster at work in an lc: the cluster, and the faults it has raised. -/
structure Work where
  cl : Cluster
  bad : List FaultRec
deriving DecidableEq, Repr

/-- Raise a fault of cluster `c` while its lc goes on. -/
def Work.fail (c cause detail : Nat) (w : Work) : Work := { w with bad := w.bad ++ [clusterFault cause c detail] }

/-- Change the cluster. -/
def Work.on (f : Cluster → Cluster) (w : Work) : Work := { w with cl := f w.cl }

/-! ## Addresses, banks and rows -/

/-- Size of the data address space (R85). -/
def dataSize : Nat := 0x100000
/-- Base of A-mem (R85). -/
def aBase : Nat := 0x60000
/-- Base of P-mem (R85). -/
def pBase : Nat := 0xE0000

/-- Wide-row size at an address (R85). -/
def wideRow (a : Nat) : Nat := if a < pBase then 512 else 256

/-- Bank of an address: W-mem and A-mem slices 0–13, P-mem banks 14–29 (R86). -/
def bankOf (a : Nat) : Nat := if a < pBase then a / 65536 else 14 + 4 * ((a - pBase) / 32768) + a / 64 % 4

/-- Row number of an address within its bank. -/
def rowOf (a : Nat) : Nat := a / wideRow a

/-- Whether an access of a width at an address obeys R87: an aligned part of a wide row, a whole one, or a narrow
word. -/
def okAccess (a n : Nat) : Bool :=
  [8, 16, 32, 64, 128, 256, 512].contains n && a % n == 0 && decide (n ≤ wideRow a) && decide (a + n ≤ dataSize)

/-- Whether `n` bytes from an address lie in one wide row, so that one aligned access holds them (R123). -/
def heldAt (a n : Nat) : Bool := decide (a + n ≤ dataSize) && a / wideRow a == (a + n - 1) / wideRow a

/-- The smallest aligned access that holds `n` bytes at an address (R123). -/
def holdingAccess (a n : Nat) : Nat × Nat :=
  match [8, 32, 64, 128, 256, 512].find? (fun w => decide (n ≤ w) && a / w == (a + n - 1) / w) with
  | some w => (a / w * w, w)
  | none => (a / 512 * 512, 512)

/-- The banks an access occupies, with its row in them (R88). -/
def banksOf (a n : Nat) : List (Nat × Nat) :=
  if a < pBase then [(bankOf a, rowOf a)]
  else (List.range ((n + 63) / 64)).map (fun i => (bankOf (a + 64 * i), rowOf (a + 64 * i)))

/-- Record the use of the banks of an access in an lc. -/
def useBanks (lc a n : Nat) (use : Use) (id : Nat) (cl : Cluster) : Cluster :=
  { cl with uses := cl.uses ++ (banksOf a n).map (fun b => { lc := lc, bank := b.1, row := b.2, use := use, id := id }) }

/-! ## Correction -/

/-- ECC_LAST after a correction (R93): VALID, SPACE, BIT and ADDR. -/
def eccLastOf (space flaw addr : Nat) : W32 :=
  BitVec.ofNat 32 (2 ^ 31 + space * 2 ^ 29 + (flaw - 1) * 2 ^ 20 + addr)

/-- Count a corrected granule (R91, R93). -/
def noteCorrected (space flaw addr : Nat) : Cluster → Cluster :=
  count (fun k => { k with eccCorr := satAdd k.eccCorr 1, eccLast := eccLastOf space flaw addr })

/-- Count the correction of a granule of data memory, once in an lc however many merged reads it serves (R89, R91). -/
def countOnce (flaw g : Nat) (cl : Cluster) : Cluster :=
  if cl.counted.contains g then cl else noteCorrected 0 flaw (16 * g) { cl with counted := g :: cl.counted }

/-- The correction stage over the granules of an access (R91, R92): a flaw of one bit is corrected and counted, any
other is fatal. -/
def correct (c : Nat) : List Nat → Work → Work
  | [], w => w
  | g :: gs, w =>
    let flaw := Tab.get 0 w.cl.upsets g
    correct c gs
      (if flaw = 0 then w
       else if flaw = 10 then w.fail c cEccUncorr (16 * g)
       else w.on (countOnce flaw g))

/-- The granules of an access. -/
def granules (a n : Nat) : List Nat := (List.range ((a + n + 15) / 16 - a / 16)).map (· + a / 16)

/-- Read `n` bytes in lc `now` (R94) as the access `id`, 0 for one that occupies each bank once: the contents as the
writes of earlier lc left them. -/
def readAs (id c now a n : Nat) (w : Work) : Bytes × Work :=
  let w := correct c (granules a n) w
  (Mem.read 0 w.cl.mem a n, w.on (useBanks now a n .read id))

/-- Read `n` bytes in lc `now` (R94). -/
def readMem (c now a n : Nat) (w : Work) : Bytes × Work := readAs 0 c now a n w

/-- Read `n` bytes by the smallest aligned access that holds them (R123). -/
def readHeld (c now a n : Nat) (w : Work) : Bytes × Work :=
  let acc := holdingAccess a n
  let r := readMem c now acc.1 acc.2 w
  (sliceB r.1 (a - acc.1) n, r.2)

/-- What a unit does with data it has read: nothing when a read since `w` was uncorrectable, whose data is not delivered
(R92). -/
def delivered (w : Work) (r : α × Work) (f : α → Work → Work) : Work :=
  if r.2.bad.length = w.bad.length then f r.1 r.2 else r.2

/-- Whether an access touches a row of an armed scoreboard entry (R99). -/
def guarded (cl : Cluster) (a n : Nat) : Bool :=
  decide (a < pBase) &&
    cl.sb.any (fun e =>
      e.2.st == SbSt.armed && e.2.amem == decide (aBase ≤ a) &&
        (let base := if aBase ≤ a then aBase else 0
         decide (e.2.first ≤ (a + n - 1 - base) / 512) && decide ((a - base) / 512 < e.2.first + e.2.rows)))

/-- Schedule a write that commits in lc `at_` and is seen from the next lc (R94). -/
def writeFrom (core : Bool) (at_ a : Nat) (data : Bytes) (use : Use) (cl : Cluster) : Cluster :=
  let id := cl.accId + 1
  useBanks at_ a data.length use id { cl with accId := id, late := cl.late ++ [(at_ + 1, .mem a data id core)] }

/-- A core's write. -/
def writeMem (at_ a : Nat) (data : Bytes) (use : Use) (cl : Cluster) : Cluster := writeFrom true at_ a data use cl

/-- Schedule an effect first seen in lc `at_`. -/
def later (at_ : Nat) (e : Late) (cl : Cluster) : Cluster := { cl with late := cl.late ++ [(at_, e)] }

/-! ## Same-lc cases -/

/-- The uses of a bank in an lc. -/
def bankUses (now b : Nat) (cl : Cluster) : List PortUse := cl.uses.filter (fun u => u.lc == now && u.bank == b)

/-- Whether the writes among the uses of a bank collide (R95): two writes, or a narrow write with anything else; an
access does not collide with itself (log entry 68). -/
def writesCollide (us : List PortUse) : Bool :=
  us.any (fun u => us.any (fun t => u.id != t.id && u.use != Use.read && (t.use != Use.read || u.use == Use.narrow)))

/-- Whether two reads of a bank meet on different rows (R95). -/
def readsCollide (us : List PortUse) : Bool :=
  us.any (fun u => u.use == Use.read &&
    us.any (fun t => t.use == Use.read && t.row != u.row && (t.id != u.id || t.id == 0)))

/-- Banks with a conflict or collision in an lc. -/
def badBanks (now : Nat) (cl : Cluster) : List Nat :=
  (List.range 30).filter (fun b => writesCollide (bankUses now b cl) || readsCollide (bankUses now b cl))

/-- The writes that do not commit: those of every bank with a conflict or collision, whose rows stay as they stood
(R95). -/
def droppedIds (now : Nat) (cl : Cluster) : List Nat :=
  (badBanks now cl).flatMap (fun b =>
    ((bankUses now b cl).filter (fun u => u.use != Use.read)).map (fun u => u.id))

/-! ## Commit -/

/-- Forget the flaws of the granules a write replaces (R91). -/
def healGranules (a n : Nat) (u : Tab Nat) : Tab Nat := Tab.clearRange u (a / 16) ((a + n + 15) / 16)

/-- A memory write takes effect; a narrow write first corrects its enclosing granule, and an uncorrectable one is
fatal and nothing is written (R91, R95). -/
def commitMem (c a : Nat) (data : Bytes) (w : Work) : Work :=
  let flaw := if data.length = 8 then Tab.get 0 w.cl.upsets (a / 16) else 0
  if flaw = 10 then w.fail c cEccUncorr (a / 16 * 16)
  else
    (if flaw = 0 then w else w.on (countOnce flaw (a / 16))).on (fun cl =>
      { cl with mem := Mem.write 0 cl.mem a data, upsets := healGranules a data.length cl.upsets })

/-- Add numeric events to the counters, saturating (R52). -/
def countNum (nan inf sat : Nat) : Cluster → Cluster :=
  count (fun k => { k with numNan := satAdd k.numNan nan, numInf := satAdd k.numInf inf, numSat := satAdd k.numSat sat })

/-- Blend a result into a register: lanes whose mask bit is 1 take the new value (R59). -/
def blend (old new : Lanes) (mask : W32) : Lanes := mkLanes (fun l => if mask.getLsbD l then lane new l else lane old l)

/-- A general register: g0 reads as zero (R79), and g1 of a gang member's S0 as its gang-local index (R132). -/
def readG (gang : Bool) (c : Nat) (k : Sc) (r : Nat) (cl : Cluster) : W64 :=
  if r = 0 then 0
  else if gang ∧ k = .s0 ∧ r = 1 then BitVec.ofNat 64 (gangIndex c)
  else Tab.get 0 (scalarCore k cl).g r

/-- Write a general register: g0 ignores it, and so does g1 of a gang member's S0 (R79, R132). -/
def writeG (gang : Bool) (k : Sc) (r : Nat) (v : W64) (cl : Cluster) : Cluster :=
  if r = 0 ∨ (gang = true ∧ k = .s0 ∧ r = 1) then cl
  else setScalar k { scalarCore k cl with g := Tab.set 0 (scalarCore k cl).g r v } cl

/-- An address register of S1. -/
def readA (r : Nat) (cl : Cluster) : W32 := Tab.get 0 cl.a r

/-- A vector register. -/
def readV (v r : Nat) (cl : Cluster) : Lanes := Tab.get Lanes.zero (vecCore v cl).v r

/-- Write a vector register. -/
def writeV (v r : Nat) (x : Lanes) (cl : Cluster) : Cluster :=
  setVec v { vecCore v cl with v := Tab.set Lanes.zero (vecCore v cl).v r x } cl

/-- A mask register; m0 reads as all ones (R59). -/
def readM (v r : Nat) (cl : Cluster) : W32 := if r = 0 then BitVec.allOnes 32 else Tab.get 0 (vecCore v cl).m r

/-- Write a mask register; m0 ignores it (R59). -/
def writeM (v r : Nat) (x : W32) (cl : Cluster) : Cluster :=
  if r = 0 then cl else setVec v { vecCore v cl with m := Tab.set 0 (vecCore v cl).m r x } cl

/-- Where execution goes on from an address: at the end of a loop body back to its start until the count is used up
(R114). -/
def wrapLoops : List LoopFrame → Nat → Nat × List LoopFrame
  | [], pc => (pc, [])
  | l :: ls, pc =>
    if pc = l.stop then
      (if 1 < l.left then (l.start, { l with left := l.left - 1 } :: ls) else wrapLoops ls pc)
    else (pc, l :: ls)

/-- S0 goes on at an address after a weir, wrapping the loops whose body its WEIR has ended (R114, R118). -/
def resumeAt (pc : Nat) (cl : Cluster) : Cluster :=
  let r := wrapLoops cl.s0.loops pc
  { cl with s0 := { cl.s0 with pc := r.1, loops := r.2 } }

/-- S-mem directory word at a byte offset (R108). -/
def dirWord (cl : Cluster) (off : Nat) : Nat := leNat (Mem.read 0 cl.smem off 2)

/-- Whether the cluster runs in gang mode (R108, R132). -/
def inGang (cl : Cluster) : Bool := bit (dirWord cl 0x02) 0

/-- SENT_SCRATCH of the directory (R108). -/
def sentScratch (cl : Cluster) : Nat := leNat (Mem.read 0 cl.smem 0x20 4)

end Sys2Proof.Machine
end

