-- ==== Sys2Proof/Machine/Matrix.lean ====
section
/-! DEFINITION. Matrix cores: descriptors (R121 to R125), operand pairs and shapes (R35, R36), the arithmetic of
K-blocks (R48 to R50, R436), and the row, token or unit that a macro-operation performs in each lc (R38 to R41). -/

namespace Sys2Proof.Machine

/-! ## Descriptors -/

/-- Read S-mem through the correction stage (R106). -/
def readSmem (c off n : Nat) (w : Work) : Bytes × Work :=
  let fix (w : Work) (g : Nat) : Work :=
    let flaw := Tab.get 0 w.cl.ctlUpsets g
    if flaw = 0 then w
    else if flaw = 10 then w.fail c cEccUncorr (16 * g)
    else w.on (noteCorrected 1 flaw (16 * g))
  (Mem.read 0 w.cl.smem off n, (granules off n).foldl fix w)

/-- Whether a format code is an MX format (R42). -/
def isMx (f : Nat) : Bool := f == 5 || f == 6 || f == 7

/-- Operand pairs of R36. -/
def pairOk (a b : Nat) : Bool :=
  (a == 1 && b == 1) || ((a == 3 || a == 4) && (b == 3 || b == 4)) || (isMx a && isMx b)

/-- The first dimension Kb of a pair's shape (R35, R36). -/
def pairKb (a b : Nat) : Nat := if a = 1 then 16 else if a = 7 ∧ b = 7 then 64 else 32

/-- Bytes of `n` packed elements (R44). -/
def packedBytes (fmt n : Nat) : Nat := fmtWidth fmt * n / 8

/-- Bytes of a streamed row, or of an operand-A token (R123). -/
def rowBytesOf (fmt kb : Nat) : Nat := packedBytes fmt kb

/-- An auxiliary descriptor's fields (R125). -/
def auxOf (x : Nat) : AuxDesc :=
  { sa := bits x 127 108, sb := bits x 107 88, sastr := bits x 87 76, sbstr := bits x 75 64, rmask := bits x 63 41,
    bmask := bits x 40 18, rm := bit x 17, bm := bit x 16 }

/-- A macro-operation from its descriptor word, before its reads (R122). -/
def macroOf (x now : Nat) (aux : Option AuxDesc) (sub : Option Nat) : Macro :=
  { mopc := bits x 127 122, fmtA := bits x 121 118, fmtB := bits x 117 114, count := bits x 113 98, acc := bit x 97,
    toQueue := bit x 96, drain := bit x 95, aux := aux, aAddr := 8 * bits x 93 77,
    bAddr := sub.getD (8 * bits x 76 60), aStr := 8 * bits x 59 50, bStr := 8 * bits x 49 40,
    dAddr := pBase + 8 * bits x 39 26, issue := now, j := 0, bufA := none, bufB := none, blockScale := [],
    mask := 2 ^ 64 - 1 }

/-- Bytes of the part of the drained block written in one lc: an eighth of it (R39, R94). -/
def drainPart (m : Macro) : Nat := pairKb m.fmtA m.fmtB * 8

/-- Bytes of a dy token: 16 elements (R123). -/
def dyBytes (fmt : Nat) : Nat := packedBytes fmt 16

/-- Whether the auxiliary descriptor suits the operation (R125): no mask but for GRAD, the row-mask bits in one word,
fields that the operation does not use zero. -/
def auxOk (m : Macro) (x : Nat) (d : AuxDesc) : Bool :=
  bits x 15 0 == 0 && (m.mopc == 2 || (!d.rm && !d.bm)) && (d.rm || d.rmask == 0) && (d.bm || d.bmask == 0) &&
  (isMx m.fmtA || (d.sa == 0 && d.sastr == 0)) && (isMx m.fmtB || (d.sb == 0 && d.sbstr == 0)) &&
  (m.mopc == 2 || d.sastr == 0) && (!d.rm || decide (d.rmask % 64 + pairKb m.fmtA m.fmtB ≤ 64))

/-- The operand-A accesses of a macro-operation: address and bytes held (R123). -/
def aRanges (m : Macro) : List (Nat × Nat) :=
  if m.mopc = 1 then [(m.aAddr, 512)]
  else if m.mopc = 2 then (List.range m.count).map (fun j => (m.aAddr + j * m.aStr, rowBytesOf m.fmtA (pairKb m.fmtA m.fmtB)))
  else (List.range m.count).map (fun j => (m.aAddr + 32 * j, 32))

/-- The operand-B accesses (R123). -/
def bRanges (m : Macro) : List (Nat × Nat) :=
  (List.range m.count).map (fun j => (m.bAddr + j * m.bStr,
    if m.mopc = 1 then rowBytesOf m.fmtB (pairKb m.fmtA m.fmtB) else if m.mopc = 2 then dyBytes m.fmtB else 32))

/-- The destination accesses (R123); a COPY's are its operand A. -/
def dRanges (m : Macro) : List (Nat × Nat) :=
  if m.mopc = 1 ∧ m.toQueue = false then (List.range m.count).map (fun j => (m.dAddr + 64 * j, 64))
  else if m.mopc = 2 ∧ m.drain = true then (List.range 8).map (fun i => (m.dAddr + drainPart m * i, drainPart m))
  else []

/-- Scales of a row, token or block of `kb` reduction elements per output (R125). -/
def scaleCount (fmt kb : Nat) : Nat := if fmt = 7 ∧ kb = 64 then 2 else 1

/-- The scale accesses of a macro-operation with its auxiliary descriptor (R125): a stationary block's scales, and those
of each row or token of an MX operand. -/
def scaleRanges (m : Macro) (d : AuxDesc) : List (Nat × Nat) :=
  let kb := pairKb m.fmtA m.fmtB
  (if isMx m.fmtA = false then []
   else if m.mopc = 1 then [(d.sa, 16 * (kb / 32))]
   else (List.range m.count).map (fun j => (d.sa + j * d.sastr, scaleCount m.fmtA kb))) ++
  (if isMx m.fmtB then (List.range m.count).map (fun j => (d.sb + j * d.sbstr, scaleCount m.fmtB kb)) else [])

/-- The mask accesses of a GRAD (R57, R125): the 8-byte word of the row-mask bits, the byte of the block-mask bit. -/
def maskRanges (d : AuxDesc) : List (Nat × Nat) :=
  (if d.rm then [(d.rmask / 64 * 8, 8)] else []) ++ (if d.bm then [(d.bmask / 8, 1)] else [])

/-- The accesses that the auxiliary descriptor adds. -/
def auxRanges (m : Macro) : List (Nat × Nat) :=
  match m.aux with
  | some d => scaleRanges m d ++ maskRanges d
  | none => []

/-- Whether an address lies in A-mem, the one memory from which streamed operands come (R88). -/
def inAmem (a : Nat) : Bool := decide (aBase ≤ a) && decide (a < pBase)

/-- Whether the fields of a descriptor form a defined operation for a core (R36, R38, R121 to R123). -/
def macroOk (core x : Nat) (m : Macro) : Bool :=
  bits x 14 0 == 0 &&
  (if m.mopc = 1 then
     coreClass core != .w && pairOk m.fmtA m.fmtB && m.aStr == 0 && !m.drain && !(m.acc && m.toQueue) &&
     (m.aux.isSome || !(isMx m.fmtA || isMx m.fmtB))
   else if m.mopc = 2 then
     coreClass core == .w && pairOk m.fmtA m.fmtB && !m.toQueue && (m.aux.isSome || !(isMx m.fmtA || isMx m.fmtB))
   else if m.mopc = 3 then
     m.fmtA == 0 && m.fmtB == 0 && !m.acc && !m.toQueue && !m.drain && bits x 39 26 == 0 && m.aux.isNone
   else false)

/-- Whether an operand-B address keeps R87 and R88: a COPY's units are 32-byte aligned, a streamed row or token lies in
one access to A-mem (R121, R123). -/
def bAddrOk (m : Macro) : Bool :=
  (bRanges m).all (fun r => if m.mopc = 3 then okAccess r.1 32 else heldAt r.1 r.2 && inAmem r.1)

/-- Whether the addresses the descriptors themselves give keep R87 and R88: x tokens in A-mem, a stationary block in
W-mem or A-mem, which the wide row implies, scales and masks each in one access outside P-mem (log entry 18). A COPY may
read and write any of the three memories (DESIGN CHOICE, log entry 94). -/
def descAddrOk (m : Macro) : Bool :=
  (aRanges m).all (fun r => if m.mopc = 2 then heldAt r.1 r.2 && inAmem r.1 else okAccess r.1 r.2) &&
  (auxRanges m).all (fun r => heldAt r.1 r.2 && decide (r.1 < pBase)) &&
  (dRanges m).all (fun r => if r.2 = 512 then okAccess r.1 256 && okAccess (r.1 + 256) 256 else okAccess r.1 r.2)

/-- Lc from the issue to the first row, token or unit: the block switch (R40, R123). -/
def switchLc (core : Nat) (m : Macro) : Nat := if m.mopc = 2 then 0 else if m.mopc = 1 ∧ coreClass core = .x then 16 else 2

/-- Occupancy of a macro-operation (R40, R123). -/
def occupancy (core : Nat) (m : Macro) : Nat := m.count + switchLc core m + (if m.mopc = 2 ∧ m.drain = true then 8 else 0)

/-- Read a list of ranges, each by its smallest access, one after the other (R123, R125). -/
def readRanges (c now : Nat) : List (Nat × Nat) → Work → List Bytes × Work
  | [], w => ([], w)
  | r :: rs, w =>
    let x := readHeld c now r.1 r.2 w
    let y := readRanges c now rs x.2
    (x.1 :: y.1, y.2)

/-- Bits of the row mask with the block mask folded in (R57, R125), from the word and the byte read for them. -/
def maskOf (d : AuxDesc) (kb : Nat) (got : List Bytes) : Nat :=
  let rows := if d.rm then leNat (got.getD 0 []) / 2 ^ (d.rmask % 64) % 2 ^ kb else 2 ^ 64 - 1
  let blk := if d.bm then bit (leNat (got.getD (b2n d.rm) [])) (d.bmask % 8) else true
  if blk then rows else 0

/-- The transpose buffer after the load of an X core's block: 16 × 16 cells of 4 bytes, row-major; row k, cell i holds
the elements (k, Kb/16 · i) and on, packed at its low end (R124, R203; log entry 69). -/
def transposed (fmt kb : Nat) (blk : Bytes) : Bytes :=
  let per := kb / 16
  (List.range 256).flatMap (fun q =>
    toLe 4 (packBits (fmtWidth fmt) ((List.range per).map (fun e => elemAt fmt blk ((q % 16 * per + e) * 16 + q / 16)))))

/-- What a macro-operation reads at its issue: the wide row of a STREAM's stationary block, then its scales, or a GRAD's
masks (R88, R124, R125). -/
def issueRanges (m : Macro) : List (Nat × Nat) :=
  match m.aux with
  | some d =>
    if m.mopc = 1 then (if isMx m.fmtA then [(d.sa, 16 * (pairKb m.fmtA m.fmtB / 32))] else [])
    else if m.mopc = 2 then maskRanges d else []
  | none => []

/-- The core takes up a macro-operation with what it has read for it (R40, R123, R124). -/
def takeUp (core idx : Nat) (sub : Option Nat) (m : Macro) (blk : Bytes) (got : List Bytes) (w : Work) : Work :=
  let mc := matCore core w.cl
  let kb := pairKb m.fmtA m.fmtB
  let msk := match m.aux with
    | some d => if m.mopc = 2 then maskOf d kb got else 2 ^ 64 - 1
    | none => 2 ^ 64 - 1
  w.on (setMat core
    { mc with
      free := m.issue + occupancy core m, desc := idx, subB := BitVec.ofNat 32 (sub.getD 0),
      block := if m.mopc = 1 then blk else mc.block,
      tbuf := if m.mopc = 1 ∧ coreClass core = .x then transposed m.fmtA kb blk else mc.tbuf,
      op := some { m with blockScale := if m.mopc = 1 then got.flatten else [], mask := msk } })

/-- Issue of a macro-operation in lc `now` (R38 to R41, R99, R121 to R124). -/
def startMop (c now core idx : Nat) (sub : Option Nat) (w : Work) : Work :=
  let (db, w1) := readSmem c (dirWord w.cl 0x10 + 16 * idx) 16 w
  let x := leNat db
  let (ab, w1) := if bit x 94 then readSmem c (dirWord w.cl 0x14 + 16 * bits x 25 15) 16 w1 else ([], w1)
  delivered w (x, w1) (fun x w =>
    let aux := if bit x 94 then some (auxOf (leNat ab)) else none
    let m := macroOf x now aux sub
    if dirWord w.cl 0x12 ≤ idx ∨ 12 ≤ core ∨ macroOk core x m = false
        ∨ (bit x 94 = true ∧ dirWord w.cl 0x16 ≤ bits x 25 15) ∨ (bit x 94 = false ∧ bits x 25 15 ≠ 0)
        ∨ (match aux with | some d => auxOk m (leNat ab) d | none => true) = false then w.fail c cFetch idx
    else if now < (matCore core w.cl).free then w.fail c cCollision core
    else if m.count = 0 then w
    else if descAddrOk m = false then w.fail c cFetch idx
    else if bAddrOk m = false then w.fail c (if sub.isSome then cAddress else cFetch) idx
    else if (aRanges m ++ bRanges m ++ auxRanges m).any (fun r => guarded w.cl r.1 r.2) then w.fail c cScoreboard core
    else
      let b := if m.mopc = 1 then readMem c now m.aAddr 512 w else ([], w)
      let g := readRanges c now (issueRanges m) b.2
      delivered w g (takeUp core idx sub m b.1))

/-! ## Arithmetic -/

/-- A running FP32 value and whether it has overflowed. -/
structure Acc where
  v : W32
  ovf : Bool
deriving DecidableEq, Repr

/-- Add a value to a running FP32 value (R48 step 5, R49). -/
def Acc.add (a : Acc) (x : FVal) : Acc :=
  let r := roundF32 (x.add (f32 a.v))
  { v := r.bits, ovf := a.ovf || r.ovf }

/-- An exact sum of products; an exact zero is +0 (R48, R50). -/
def dotExact (xs : List (FVal × FVal)) : FVal :=
  match xs.foldl (fun (s : FVal) p => s.add (p.1.mul p.2)) (FVal.fin false 0 0) with
  | FVal.fin _ 0 _ => FVal.fin false 0 0
  | v => v

/-- One K-block: the exact sum, scaled exactly, rounded once, added to the running value (R48). -/
def Acc.block (a : Acc) (xs : List (FVal × FVal)) (scale : FVal) : Acc :=
  let y := roundF32 ((dotExact xs).mul scale)
  { a.add (f32 y.bits) with ovf := a.ovf || y.ovf || (a.add (f32 y.bits)).ovf }

/-- Product of two scale codes; plain FP8 counts as code 127 (R48). -/
def scaleOf (a b : Nat) : FVal := (scaleVal a).mul (scaleVal b)

/-- One output element of a streamed row: its products in K order, with the scales of its K-blocks (R48, R49). -/
def outElem (bf16 : Bool) (start : W32) (xs : List (FVal × FVal)) (scales : List FVal) : Acc :=
  if bf16 then xs.foldl (fun a p => a.add (p.1.mul p.2)) { v := start, ovf := false }
  else scales.zipIdx.foldl (fun a s => a.block ((xs.drop (32 * s.2)).take 32) s.1) { v := start, ovf := false }

/-- Index of element r of output o in a stationary block: block order of an F or an X core (R124). -/
def blockIndex (x : Bool) (kb o r : Nat) : Nat := if x then r * 16 + o else o * kb + r

/-- The 16 results of a streamed row with its start values (R35, R38, R124). -/
def streamRow (x : Bool) (fa fb : Nat) (block row scaleA scaleB start : Bytes) : List Acc :=
  let kb := pairKb fa fb
  let bv := (List.range (16 * kb)).map (fun i => elemVal fa (elemAt fa block i))
  let rv := (List.range kb).map (fun i => elemVal fb (elemAt fb row i))
  let nb := kb / 32
  (List.range 16).map (fun o =>
    outElem (fa == 1) (BitVec.ofNat 32 (fieldB start (4 * o) 4))
      ((List.range kb).map (fun r => (bv.getD (blockIndex x kb o r) (.fin false 0 0), rv.getD r (.fin false 0 0))))
      ((List.range nb).map (fun b =>
        scaleOf (if isMx fa then (scaleA.getD (o * nb + b) 127).toNat else 127)
                (if isMx fb then (scaleB.getD b 127).toNat else 127))))

/-- The bytes of a list of FP32 results. -/
def accBytes (rs : List Acc) : Bytes := rs.flatMap (fun r => toLe 4 r.v.toNat)

/-- How many results are NaN, and how many are infinite by overflow (R52). -/
def accEvents (rs : List Acc) : Nat × Nat :=
  ((rs.filter (fun r => (f32 r.v).isNaN)).length,
   (rs.filter (fun r => r.ovf && (match f32 r.v with | .inf _ => true | _ => false))).length)

/-- Schedule the numeric events of results first seen in lc `at_`. -/
def laterNum (at_ nan inf sat : Nat) (cl : Cluster) : Cluster :=
  if nan = 0 ∧ inf = 0 ∧ sat = 0 then cl else later at_ (.num nan inf sat) cl

/-! ## One lc of a macro-operation -/

/-- Take a row or token: from the wide row read last when it holds it, else by a read in this lc; the whole wide
row when the next row lies in it too, otherwise the smallest access that holds it (R123). -/
def takeRow (c now a n nextA : Nat) (more : Bool) (buf : Option (Nat × Bytes)) (w : Work) :
    Bytes × Option (Nat × Bytes) × Work :=
  let base := a / wideRow a * wideRow a
  match buf with
  | some (b, data) =>
    if b = base then (sliceB data (a - base) n, buf, w)
    else fresh base
  | none => fresh base
where
  fresh (base : Nat) : Bytes × Option (Nat × Bytes) × Work :=
    if more && decide (nextA / wideRow a * wideRow a = base) then
      let (data, w) := readMem c now base (wideRow a) w
      (sliceB data (a - base) n, some (base, data), w)
    else
      let acc := holdingAccess a n
      let (data, w) := readMem c now acc.1 acc.2 w
      (sliceB data (a - acc.1) n, none, w)

/-- The scales of a row or token of an MX operand, read in the lc of the row (R125; log entry 18). -/
def takeScale (c now fmt : Nat) (m : Macro) (a : AuxDesc → Nat) (w : Work) : Bytes × Work :=
  match m.aux with
  | some d => if isMx fmt then readHeld c now (a d) (scaleCount fmt (pairKb m.fmtA m.fmtB)) w else ([], w)
  | none => ([], w)

/-- Row j of a STREAM, issued in lc `now` (R38, R40, R94). -/
def streamStep (c now core : Nat) (m : Macro) (w : Work) : Work :=
  let kb := pairKb m.fmtA m.fmtB
  let isX := coreClass core == .x
  let blk := (matCore core w.cl).block
  let (row, buf, w1) := takeRow c now (m.bAddr + m.j * m.bStr) (rowBytesOf m.fmtB kb) (m.bAddr + (m.j + 1) * m.bStr)
    (decide (m.j + 1 < m.count)) m.bufB w
  delivered w (takeScale c now m.fmtB m (fun d => d.sb + m.j * d.sbstr) w1) (fun sb w =>
    let dst := m.dAddr + 64 * m.j
    let next := if m.j + 1 = m.count then none else some { m with j := m.j + 1, bufB := buf }
    let w := w.on (fun cl => setMat core { matCore core cl with op := next } cl)
    if m.acc then w.on (later (now + 2) (.addRow core dst row blk m.blockScale sb m.fmtA m.fmtB))
    else
      let rs := streamRow isX m.fmtA m.fmtB blk row m.blockScale sb (zeros 64)
      let ev := accEvents rs
      w.on (fun cl =>
        laterNum (now + 7) ev.1 ev.2 0
          (if m.toQueue then later (now + 7) (.mvq (accBytes rs)) cl else writeMem (now + 6) dst (accBytes rs) .write cl)))

/-- An ADD row in the lc of its P-mem read, two lc after its issue (R94). -/
def addRowStep (c now core addr : Nat) (row blk sa sb : Bytes) (fa fb : Nat) (w : Work) : Work :=
  delivered w (readMem c now addr 64 w) (fun start w =>
    let rs := streamRow (coreClass core == .x) fa fb blk row sa sb start
    let ev := accEvents rs
    w.on (fun cl => laterNum (now + 5) ev.1 ev.2 0 (writeMem (now + 4) addr (accBytes rs) .write cl)))

/-- Add a product with its scale to an open K-block (R48, R436): exactly, in units of 2^-286. -/
def KSum.addProd (k : KSum) (p : FVal) : KSum :=
  match p with
  | .nan => { k with nan := true }
  | .inf n => if n then { k with ninf := true } else { k with pinf := true }
  | .fin neg m e => { k with sum := k.sum + scaleInt neg m e (-286) }

/-- The value of an open K-block (R48, R50). -/
def KSum.value (k : KSum) : FVal :=
  if k.nan || (k.pinf && k.ninf) then .nan
  else if k.pinf then .inf false
  else if k.ninf then .inf true
  else .fin (decide (k.sum < 0)) k.sum.natAbs (-286)

/-- Close the K-block of an output: round its sum once and add it to the running value (R48, R436). -/
def closeBlock (out : W32) (k : KSum) : W32 × KSum :=
  let y := roundF32 k.value
  let a := Acc.add { v := out, ovf := k.ovf || y.ovf } (f32 y.bits)
  (a.v, { KSum.reset with ovf := a.ovf })

/-- The product of one token enters one output element: the running value for a BF16 pair, the open K-block for any other
(R39, R49, R436). -/
def tokenElem (bf16 : Bool) (p : FVal) (out : W32) (k : KSum) : W32 × KSum :=
  if bf16 then
    let a := Acc.add { v := out, ovf := k.ovf } p
    (a.v, { k with ovf := a.ovf })
  else (out, k.addProd p)

/-- What a token does to output element i: its product where the mask lets it in; a K-block that closes does so for every
element, masked ones too (R57, R436). -/
def tokenInto (bf16 close on : Bool) (p : FVal) (i : Nat) (st : Tab W32 × Tab KSum) : Tab W32 × Tab KSum :=
  let out := Tab.get 0 st.1 i
  let k := Tab.get KSum.reset st.2 i
  let r := if on then tokenElem bf16 p out k else (out, k)
  let r := if close then closeBlock r.1 r.2 else r
  (Tab.set 0 st.1 i r.1, Tab.set KSum.reset st.2 i r.2)

/-- Token j of a GRAD (R39, R57, R436). Each token's scales multiply its own products before they enter the exact sum
(log entry 70), the first of two scales those of all 16 elements of a dy token (log entry 71). The open K-block closes at
its 32nd token and at a DRAIN, whichever pair that token has; a block that no FP8 or MX token has entered holds nothing to
round. -/
def tokenStep (c now core : Nat) (m : Macro) (w : Work) : Work :=
  let kb := pairKb m.fmtA m.fmtB
  let more := decide (m.j + 1 < m.count)
  let (x, bufA, w1) := takeRow c now (m.aAddr + m.j * m.aStr) (rowBytesOf m.fmtA kb) (m.aAddr + (m.j + 1) * m.aStr) more
    m.bufA w
  let (dy, bufB, w1) := takeRow c now (m.bAddr + m.j * m.bStr) (dyBytes m.fmtB) (m.bAddr + (m.j + 1) * m.bStr) more
    m.bufB w1
  let (sa, w1) := takeScale c now m.fmtA m (fun d => d.sa + m.j * d.sastr) w1
  delivered w (takeScale c now m.fmtB m (fun d => d.sb + m.j * d.sbstr) w1) (fun sb w =>
    let mc := matCore core w.cl
    let tokens := mc.tokens + 1
    let opened := mc.opened || m.fmtA != 1
    let close := (tokens % 32 == 0 || (!more && m.drain)) && opened
    let yv := (List.range 16).map (fun n => elemVal m.fmtB (elemAt m.fmtB dy n))
    let step (st : Tab W32 × Tab KSum) (k : Nat) : Tab W32 × Tab KSum :=
      let scl := scaleOf (if isMx m.fmtA then (sa.getD (k / 32) 127).toNat else 127)
        (if isMx m.fmtB then (sb.getD 0 127).toNat else 127)
      let xv := (elemVal m.fmtA (elemAt m.fmtA x k)).mul (if m.fmtA = 1 then .fin false 1 0 else scl)
      (List.range 16).foldl (fun st n =>
        tokenInto (m.fmtA == 1) close (bit m.mask k) (xv.mul (yv.getD n (.fin false 0 0))) (16 * k + n) st) st
    let st := (List.range kb).foldl step (mc.out, mc.ksum)
    let next := if !more && !m.drain then none else some { m with j := m.j + 1, bufA := bufA, bufB := bufB }
    w.on (setMat core { mc with out := st.1, ksum := st.2, tokens := tokens, opened := opened && !close, op := next }))

/-- Part i of a drain: the running values, added to P-mem in ADD mode, masked elements as +0 (R39, R57, R94). A running
value is drained as it is in NEW mode (log entry 72), and a part of two wide rows is one access (log entry 68). -/
def drainStep (c now core : Nat) (m : Macro) (w : Work) : Work :=
  let i := m.j - m.count
  let n := drainPart m
  let addr := m.dAddr + n * i
  delivered w (if m.acc then readAs (w.cl.accId + 1) c now addr n (w.on (fun cl => { cl with accId := cl.accId + 1 }))
      else (zeros n, w)) (fun old w =>
    let mc := matCore core w.cl
    let rs := (List.range (n / 4)).map (fun e =>
      let idx := n / 4 * i + e
      if bit m.mask (idx / 16) = false then { v := 0, ovf := false }
      else
        let a : Acc := { v := Tab.get 0 mc.out idx, ovf := (Tab.get KSum.reset mc.ksum idx).ovf }
        if m.acc then a.add (f32 (BitVec.ofNat 32 (fieldB old (4 * e) 4))) else a)
    let ev := accEvents rs
    let last := i == 7
    let mc := { mc with
      out := if last then [] else mc.out, ksum := if last then [] else mc.ksum, tokens := if last then 0 else mc.tokens,
      op := if last then none else some { m with j := m.j + 1 } }
    w.on (fun cl => laterNum (now + 1) ev.1 ev.2 0 (writeMem now addr (accBytes rs) .write (setMat core mc cl))))

/-- Unit j of a COPY (R94, R123). -/
def copyStep (c now core : Nat) (m : Macro) (w : Work) : Work :=
  delivered w (readMem c now (m.bAddr + m.j * m.bStr) 32 w) (fun data w =>
    let next := if m.j + 1 = m.count then none else some { m with j := m.j + 1 }
    w.on (fun cl =>
      writeMem (now + 4) (m.aAddr + 32 * m.j) data .write (setMat core { matCore core cl with op := next } cl)))

/-- What a matrix core does in lc `now`. -/
def matStep (c now : Nat) (w : Work) (core : Nat) : Work :=
  match (matCore core w.cl).op with
  | none => w
  | some m =>
    if now = m.issue + switchLc core m + m.j then
      (if m.mopc = 1 then streamStep c now core m w
       else if m.mopc = 3 then copyStep c now core m w
       else if m.j < m.count then tokenStep c now core m w
       else drainStep c now core m w)
    else w

end Sys2Proof.Machine
end

