-- ==== Sys2Proof/Machine/Mesh.lean ====
section
/-! DEFINITION. The lattice mesh: flits and their check (R134, R135), slot lists and cursors (R143 to R145), the
router in one lc (R131, R138 to R141), the landing queue (R149 to R151), and the gates (R147, R148, R189, R221 to
R223, R257). -/

namespace Sys2Proof.Machine

/-! ## Flits -/

/-- KIND of a flit (R134): 0 idle, 1 data, 2 landing, 3 reserved. -/
def flitKind (f : Flit) : Nat := bits f.side.toNat 31 30

/-- CHECK of a flit (R135): the CRC-8 of its 32 bytes and the three upper sideband bytes. -/
def flitCheck (f : Flit) : Byte :=
  crc8 (flitBytes f.data ++ [f.side.extractLsb' 8 8, f.side.extractLsb' 16 8, f.side.extractLsb' 24 8])

/-- A flit whose CHECK a sender has just computed (R135). -/
def sealFlit (f : Flit) : Flit :=
  { f with side := BitVec.ofNat 32 (f.side.toNat / 256 * 256 + (flitCheck f).toNat) }

/-- The idle flit (R134). -/
def idleFlit : Flit := { data := 0, side := 0 }

/-- A data flit (R134). -/
def dataFlit (d : BitVec 256) : Flit := sealFlit { data := d, side := BitVec.ofNat 32 (2 ^ 30) }

/-- A landing flit (R134). -/
def landFlit (d : BitVec 256) (amem : Bool) (row part : Nat) : Flit :=
  sealFlit { data := d, side := BitVec.ofNat 32 (2 ^ 31 + row % 1024 * 2 ^ 20 + b2n amem * 2 ^ 19 + part * 2 ^ 15) }

/-- Whether a received flit is a link error (R135). -/
def flitError (f : Flit) : Bool :=
  flitCheck f != f.side.extractLsb' 0 8 || flitKind f == 3 || bits f.side.toNat 14 8 != 0 ||
    (flitKind f == 0 && f.data != 0)

/-! ## Slot lists -/

/-- Index of the first entry with END from an index on. -/
def findEnd (ent : Nat → Nat) : Nat → Nat → Nat
  | 0, i => i
  | fuel + 1, i => if bit (ent i) 0 then i else findEnd ent fuel (i + 1)

/-- The cursor past the list that starts at an index: segment run, then hold run; 0 after the bank's last list
(R143, R144). -/
def skipList (ent : Nat → Nat) (i : Nat) : Nat :=
  let h := findEnd ent 1024 (findEnd ent 1024 i + 1)
  if bit (ent h) 1 then 0 else h + 1

/-- The bank that follows a bank; a run begins with bank 0 (R144). -/
def nextBank (first bank : Bool) : Bool := !first && !bank

/-- A release selects the active bank and starts or, after the final weir, ends the run of a router or gate (R144, R145). -/
def SlotPos.release (first last : Bool) (p : SlotPos) : SlotPos := { p with active := nextBank first p.active, run := !last }

/-- Start the list of a segment in the resume lc (R144), in the bank that its release has selected: the bank after that of
the list before. The cursor passes the main list, and the relay list when the weir has one. -/
def startList (ent : Bool → Nat → Nat) (first relayWeir relaySeg : Bool) (now : Nat) (p : SlotPos) : SlotPos :=
  let act := nextBank first p.bank
  let cur := if act then p.cur1 else p.cur0
  let mid := skipList (ent act) cur
  let after := if relayWeir then skipList (ent act) mid else mid
  { p with bank := act, hold := false, entry := if relaySeg then mid else cur, j := 0, holdStart := 0, segLc := 0,
           nextLc := now, cur0 := if act then p.cur0 else after, cur1 := if act then after else p.cur1 }

/-- The place in the list after an lc of the entry has been applied (R143, R145). -/
def SlotPos.advance (ent : Nat → Nat) (p : SlotPos) : SlotPos :=
  let e := ent p.entry
  let q := { p with segLc := p.segLc + 1, nextLc := p.nextLc + 1 }
  if p.j < bits e 9 2 then { q with j := p.j + 1 }
  else if bit e 0 then
    (if p.hold then { q with entry := p.holdStart, j := 0 }
     else { q with hold := true, holdStart := p.entry + 1, entry := p.entry + 1, j := 0 })
  else { q with entry := p.entry + 1, j := 0 }

/-- Whether a router or gate steps an entry in lc `now`. -/
def SlotPos.steps (p : SlotPos) (now : Nat) : Bool := p.run && p.nextLc == now

/-! ## Route entries (R131) -/

/-- Source of the output of a direction number. -/
def srcOut (e d : Nat) : Nat := bits e (63 - 3 * d) (61 - 3 * d)
/-- Source of the local write. -/
def srcLocal (e : Nat) : Nat := bits e 51 49
/-- First adder input. -/
def addA (e : Nat) : Nat := bits e 48 46
/-- Second adder input. -/
def addB (e : Nat) : Nat := bits e 45 43
/-- LAND. -/
def slotLand (e : Nat) : Bool := bit e 40
/-- Local read address in lc j of the entry (R138). -/
def readAddr (e j : Nat) : Nat := bits e 39 25 * 32 + (if bit e 1 then 32 * j else 0)
/-- WADDR. -/
def waddr (e : Nat) : Nat := bits e 24 10
/-- Local write address in lc j of the entry (R138). -/
def writeAddr (e j : Nat) : Nat := waddr e * 32 + (if bit e 1 then 32 * j else 0)
/-- Whether any source field selects a source. -/
def selects (e s : Nat) : Bool := [0, 1, 2, 3].any (fun d => srcOut e d == s) || srcLocal e == s
/-- Whether the adder is used. -/
def usesAdder (e : Nat) : Bool := selects e 6
/-- Whether the local read is used (R138). -/
def usesRead (e : Nat) : Bool := selects e 5 || (usesAdder e && (addA e == 5 || addB e == 5))
/-- Whether an input, 1 to 4, is selected (R140). -/
def selectsInput (e i : Nat) : Bool := selects e i || (usesAdder e && (addA e == i || addB e == i))

/-- Whether an entry is a reserved combination (R131). -/
def routeReserved (e : Nat) : Bool :=
  [0, 1, 2, 3].any (fun d => srcOut e d == d + 1 || srcOut e d == 7) || srcLocal e == 5 || srcLocal e == 7 ||
  addA e ≥ 6 || addB e ≥ 6 || bits e 42 41 == 3 || (usesAdder e && (addA e == addB e || addA e == 0 || addB e == 0)) ||
  (!usesAdder e && (addA e != 0 || addB e != 0)) || (slotLand e && (srcLocal e != 0 || waddr e != 0)) ||
  (!usesRead e && bits e 39 25 != 0) || (srcLocal e == 0 && waddr e != 0)

/-- An entry of a cluster's route table. -/
def routeEntry (cl : Cluster) (bank : Bool) (i : Nat) : Nat := (Tab.get 0 (if bank then cl.rt1 else cl.rt0) i).toNat

/-! ## The adder (R141) -/

/-- Lane l of a flit, 32 bits. -/
def flitLane (d : BitVec 256) (l : Nat) : W32 := d.extractLsb' (32 * l) 32

/-- The adder's result, and how many lanes are NaN and how many overflow. -/
def adder (afmt : Nat) (a b : BitVec 256) : BitVec 256 × Nat × Nat :=
  if afmt = 0 then
    let rs := (List.range 8).map (fun l => fadd32 (flitLane a l) (flitLane b l))
    (BitVec.ofNat 256 (packBits 32 (rs.map (fun r => r.bits.toNat))), (rs.filter (fun r => r.nan)).length,
      (rs.filter (fun r => r.ovf)).length)
  else if afmt = 1 then
    (BitVec.ofNat 256 (packBits 32 ((List.range 8).map (fun l => (flitLane a l + flitLane b l).toNat))), 0, 0)
  else
    ((a.extractLsb' 128 128 + b.extractLsb' 128 128) ++ (a.extractLsb' 0 128 + b.extractLsb' 0 128), 0, 0)

/-! ## Landing (R103, R149 to R151) -/

/-- Buffers of the landing queue (R149). -/
def landBuffers : Nat := 4

/-- Detail of a landing fault: the row, MEM, what went wrong (0 no row ready, 1 overflow, 2 duplicate part, 3 no armed
entry), the source of the row, and the number of the input, 1 to 4, at which a part came (R103, R155; log entry 66). -/
def landDetail (row : Nat) (amem : Bool) (what src inp : Nat) : Nat :=
  row + 2 ^ 10 * b2n amem + 2 ^ 12 * what + 2 ^ 16 * src + 2 ^ 28 * inp

/-- A part enters the landing queue from input `inp`, 1 to 4 (R149). -/
def landPart (c src inp : Nat) (f : Flit) (w : Work) : Work :=
  let amem := bit f.side.toNat 19
  let row := bits f.side.toNat 29 20
  let part := bits f.side.toNat 18 15
  match w.cl.land.find? (fun b => b.amem == amem && b.row == row) with
  | some b =>
    if (Tab.get none b.parts part).isSome then w.fail c cLanding (landDetail row amem 2 src inp)
    else
      let ps := Tab.set none b.parts part (some f.data)
      let full := ps.length == 16
      w.on (fun cl =>
        { cl with
          landSeq := if full then cl.landSeq + 1 else cl.landSeq,
          land := replaceFirst (fun b => b.amem == amem && b.row == row)
            (fun b => { b with parts := ps, order := if full then cl.landSeq + 1 else b.order }) cl.land })
  | none =>
    if landBuffers ≤ w.cl.land.length then w.fail c cLanding (landDetail row amem 1 src inp)
    else w.on (fun cl =>
      { cl with land := cl.land ++
        [{ amem := amem, row := row, parts := Tab.set none [] part (some f.data), order := 0, src := src }] })

/-- The complete buffer that completed earliest (R150). -/
def firstComplete (ls : List LandBuf) : Option LandBuf :=
  ls.foldl (fun best b =>
    if b.order = 0 then best
    else match best with
      | none => some b
      | some x => if b.order < x.order then some b else some x) none

/-- Whether a row lies in an armed scoreboard entry (R103). -/
def rowArmed (cl : Cluster) (amem : Bool) (row : Nat) : Bool :=
  cl.sb.any (fun e => e.2.st == SbSt.armed && e.2.amem == amem && decide (e.2.first ≤ row) &&
    decide (row < e.2.first + e.2.rows))

/-- A landing slot in lc `now` (R103, R104, R150, R151). -/
def landSlot (c now : Nat) (w : Work) : Work :=
  match firstComplete w.cl.land with
  | none =>
    if w.cl.sb.any (fun e => e.2.st == SbSt.armed && e.2.gated) then w.fail c cLanding (landDetail 0 false 0 0 0) else w
  | some b =>
    let w := w.on (fun cl => { cl with land := cl.land.filter (fun x => x != b) })
    if rowArmed w.cl b.amem b.row then
      let data := (List.range 16).flatMap (fun p => flitBytes ((Tab.get none b.parts p).getD 0))
      w.on (fun cl => later (now + 1) (.land b.amem b.row)
        (writeFrom false now ((if b.amem then aBase else 0) + 512 * b.row) data .write cl))
    else w.fail c cLanding (landDetail b.row b.amem 3 b.src 0)

/-- A landing write counts in its entry, which is done when it has counted all it expects (R97). -/
def landCount (amem : Bool) (row : Nat) (cl : Cluster) : Cluster :=
  { cl with sb := Tab.mapVals Score.reset (fun _ e =>
      if e.st = .armed ∧ e.amem = amem ∧ e.first ≤ row ∧ row < e.first + e.rows then
        { e with landed := e.landed + 1, st := if e.landed + 1 = e.expect then .done else .armed }
      else e) cl.sb }

/-! ## The router in one lc -/

/-- The flit that arrives at an input in an lc; idle when none is in flight (R134, R136). -/
def flitAt (s : State) (c : Nat) (d : Dir) (now : Nat) : Flit :=
  match s.wires.find? (fun x => x.dst == c && x.inp == d && x.due == now) with
  | some x => x.flit
  | none => idleFlit

/-- The directions in the order of their numbers (R26). -/
def dirs : List Dir := [.north, .east, .south, .west]

/-- A fault of the mesh at an input: detail is the direction number of the input. -/
def inputFault (c cause : Nat) (d : Dir) : FaultRec := clusterFault cause c (dirNum d)

/-- The flits at the inputs of a router that steps no entry (R140). -/
def idleRouter (c : Nat) (ins : List (Dir × Flit)) : List FaultRec :=
  ins.filterMap (fun x => if flitError x.2 || flitKind x.2 != 0 then some (inputFault c cMeshLink x.1) else none)

/-- Where the flit at an input was injected (InFlight.src). -/
def srcAt (s : State) (c : Nat) (d : Dir) (now : Nat) : Nat :=
  match s.wires.find? (fun x => x.dst == c && x.inp == d && x.due == now) with
  | some x => x.src
  | none => 0

/-- Place a flit on a link in lc `now`; an idle flit leaves the link idle (R134, R136). -/
def sendFlit (c now : Nat) (d : Dir) (f : Flit) (src : Nat) (s : State) : State :=
  match outLink c d with
  | some (dst, lat) =>
    if flitKind f = 0 then s
    else { s with wires := s.wires ++ [{ dst := dst, inp := opp d, due := now + lat, flit := sealFlit f, src := src }] }
  | none => s

/-- Local read four lc ahead, for the entry that applies then (R138). -/
def readAhead (c now : Nat) (w : Work) : Work :=
  let p := w.cl.pos
  let ent := routeEntry w.cl p.bank
  let q := ((p.advance ent).advance ent).advance ent |>.advance ent
  let e := ent q.entry
  if p.hold || q.hold || !usesRead e then w
  else
    delivered w (readMem c now (readAddr e q.j) 32 w) (fun data w =>
      w.on (fun cl => { cl with rpipe := cl.rpipe ++ [(now + 4, data)] }))

/-- What a router does with its inputs under entry `e` in lc j of it: the local port's effects on the cluster, and
the flits for the four outputs (R138 to R141, R149, R150). A missing flit or one of the wrong kind is a fault that names the
number of its input (R155; log entry 66). -/
def applyEntry (c now e j : Nat) (ins : List (Dir × Flit)) (srcs : List Nat) (w : Work) : List Flit × Work :=
  let input (i : Nat) : Flit := (ins.map Prod.snd).getD (i - 1) idleFlit
  let rd := (w.cl.rpipe.find? (fun r => r.1 == now)).map Prod.snd
  let w := w.on (fun cl => { cl with rpipe := cl.rpipe.filter (fun r => r.1 != now) })
  let w := if usesRead e ∧ rd = none then w.fail c cFetch e else w
  let local_ := dataFlit (flitOf (rd.getD []))
  let opnd (i : Nat) : Flit := if i = 5 then local_ else input i
  let a := opnd (addA e)
  let b := opnd (addB e)
  let sum := adder (bits e 42 41) a.data b.data
  let odd := [addA e, addB e].filter (fun i => flitKind (opnd i) != 1)
  let w := if usesAdder e then
      (if odd ≠ [] then { w with bad := w.bad ++ odd.map (fun i => clusterFault cMeshFlit c (i - 1)) }
       else w.on (count (fun k => { k with meshNan := satAdd k.meshNan sum.2.1, meshInf := satAdd k.meshInf sum.2.2 })))
    else w
  let source (i : Nat) : Flit :=
    if i = 0 ∨ i = 7 then idleFlit else if i = 5 then local_ else if i = 6 then dataFlit sum.1 else input i
  let strays := ins.filterMap (fun x =>
    if flitKind x.2 != 0 && !selectsInput e (dirNum x.1 + 1) then some (inputFault c cMeshLink x.1) else none)
  let w := { w with bad := w.bad ++ strays }
  let l := source (srcLocal e)
  let w :=
    if srcLocal e = 0 then w
    else if waddr e = 0x7FFF then
      (if flitKind l = 2 then landPart c (srcs.getD (srcLocal e - 1) 0) (srcLocal e) l w
       else if flitKind l = 1 then w.fail c cMeshFlit (srcLocal e - 1) else w)
    else if flitKind l = 1 then w.on (writeFrom false now (writeAddr e j) (flitBytes l.data) .write)
    else w.fail c cMeshFlit (srcLocal e - 1)
  let w := if slotLand e then landSlot c now w else w
  ([0, 1, 2, 3].map (fun d => source (srcOut e d)), w)

/-- One router in lc `now` (R138 to R141), with the faults it raises. In an lc with a link error it applies nothing of its
entry (DESIGN CHOICE, log entry 96). -/
def routerStep (c now : Nat) (s : State) : State × List FaultRec :=
  let ins := dirs.map (fun d => (d, flitAt s c d now))
  let srcs := dirs.map (fun d => srcAt s c d now)
  let s := { s with wires := s.wires.filter (fun x => !(x.dst == c && x.due == now)) }
  let cl := clusterAt s c
  if cl.pos.steps now = false then (s, idleRouter c ins)
  else
    let ent := routeEntry cl cl.pos.bank
    let e := ent cl.pos.entry
    let flaw := Tab.get 0 cl.ctlUpsets (65536 + (b2n cl.pos.bank * 8192 + 8 * cl.pos.entry) / 16)
    let w : Work := readAhead c now { cl := cl, bad := [] }
    let w := w.on (fun cl => { cl with pos := cl.pos.advance ent })
    let errs := ins.filterMap (fun x => if flitError x.2 then some (inputFault c cMeshLink x.1) else none)
    if errs ≠ [] then (setCluster c w.cl s, w.bad ++ errs)
    else if flaw = 10 then (setCluster c w.cl s, w.bad ++ [clusterFault cEccUncorr c (65536 + cl.pos.entry)])
    else if routeReserved e then (setCluster c w.cl s, w.bad ++ [clusterFault cFetch c cl.pos.entry])
    else
      let w := if flaw = 0 then w
        else w.on (noteCorrected 2 flaw ((b2n cl.pos.bank * 8192 + 8 * cl.pos.entry) / 16 * 16))
      let (outs, w) := applyEntry c now e cl.pos.j ins srcs w
      let s := setCluster c w.cl s
      let src (d : Dir) : Nat := if srcOut e (dirNum d) ≤ 4 then srcs.getD (srcOut e (dirNum d) - 1) 0 else 0
      ((dirs.zip outs).foldl (fun s x => sendFlit c now x.1 x.2 (src x.1) s) s, w.bad)

/-! ## Gates -/

/-- Bytes of an extraction buffer of a ring die (R257). -/
def ringExtractSize : Nat := 262144
/-- Bytes of a stack controller's extraction buffer (R221). -/
def stackExtractSize : Nat := 524288

/-- ACT of a gate entry (R189). -/
def gateAct (e : Nat) : Nat := bits e 63 61
/-- FACE of a gate entry. -/
def gateFace (e : Nat) : Bool := bit e 60
/-- OBJ of a gate entry. -/
def gateObj (e : Nat) : Nat := bits e 59 40

/-- An entry of a gate bank. -/
def gateEntry (g : Gate) (bank : Bool) (i : Nat) : Nat := ((if bank then g.bank1 else g.bank0).getD i 0).toNat

/-- Whether the bank in which a gate runs holds entries (R189). -/
def gateActive (g : Gate) : Bool := !(if g.pos.bank then g.bank1 else g.bank0).isEmpty

/-- What a gate injects next: the bytes, and MEM, row and part when it goes as a landing flit. -/
structure Next where
  data : Bytes
  amem : Bool
  row : Nat
  part : Nat
deriving DecidableEq, Repr

/-- The next 32 bytes of the accepted tiles of a sluice, in ascending tile index, payload rows before trailer rows
(R148, R256, R257); none while the next tile has not been accepted. -/
def takeSluice (d i : Nat) (s : State) : Option Next × State :=
  let k := sluiceKey d i
  let sl := sluiceAt s k
  let r := ringAt s d
  let mine := r.waiting.filter (fun t => t.sluice == i)
  let nextIx := sl.landed - mine.length
  match mine.find? (fun t => t.index == nextIx) with
  | none => (none, s)
  | some t =>
    match t.rows with
    | [] => (none, s)
    | row :: rest =>
      let left := row.drop 32
      let t' : Waiting := if left.isEmpty then { t with rows := rest, next := t.next + 1 } else { t with rows := left :: rest }
      let done := t'.rows.isEmpty
      (some { data := row.take 32, amem := bit sl.row 15, row := bits sl.row 9 0 + nextIx * sl.rowStep + t.next,
              part := 16 - row.length / 32 },
       updRing d (fun r =>
         { r with
           waiting := if done then removeFirst (fun x => x == t) r.waiting
                      else replaceFirst (fun x => x == t) (fun _ => t') r.waiting,
           bufUsed := if done then r.bufUsed - t.size else r.bufUsed }) s)

/-- Key of a staging or extraction list (R221). -/
def stageKey (stack : Nat) (extraction : Bool) (l : Nat) : Nat := stack * 131072 + b2n extraction * 65536 + l

/-- A staging or extraction list that does not exist: no weir starts it. -/
def StageList.none : StageList :=
  { extraction := false, startWeir := 65536, entries := [], st := .idle, done := 0, total := 0, rows := [], rowsRead := 0,
    bytes := [] }

/-- A staging or extraction list by key. -/
def stageAt (s : State) (k : Nat) : StageList := Tab.get StageList.none s.tier.stages k

/-- Put a staging or extraction list back. -/
def setStage (k : Nat) (l : StageList) (s : State) : State :=
  { s with tier := { s.tier with stages := Tab.set StageList.none s.tier.stages k l } }

/-- Trailer rows that each tile of an entry moves (R221). -/
def StageEnt.trailRows (e : StageEnt) : Nat := if e.trailer then e.trows else 0

/-- Rows of one tile of an entry: payload, then trailer rows (R102, R221). -/
def StageEnt.tileRows (e : StageEnt) : Nat := 32 + e.trailRows

/-- Tile `k` of a list, as its entry and its number in the entry. -/
def tileOf : List StageEnt → Nat → Option (StageEnt × Nat)
  | [], _ => none
  | e :: es, k => if k < e.count then some (e, k) else tileOf es (k - e.count)

/-- Bytes of the extraction buffer that a tile of an entry takes (R223). -/
def stageBytes (e : StageEnt) : Nat := 512 * e.tileRows

/-- The tiles from tile `k` on that `left` bytes complete, as entry and number; `fuel` bounds them. -/
def completeTiles (es : List StageEnt) : Nat → Nat → Nat → List (StageEnt × Nat)
  | 0, _, _ => []
  | fuel + 1, k, left =>
    match tileOf es k with
    | some (e, i) => if stageBytes e ≤ left then (e, i) :: completeTiles es fuel (k + 1) (left - stageBytes e) else []
    | none => []

/-- The tiles of an extraction list that are complete in the buffer and not yet written, in order (R223); the buffer
holds at most 32. -/
def waitingTiles (l : StageList) : List (StageEnt × Nat) :=
  if l.extraction = true ∧ l.st = .executing then completeTiles l.entries 32 l.done l.bytes.length else []

/-- Put extracted bytes into a list's buffer; a tile that they complete waits for its write (R223, R224). -/
def putExtracted (k : Nat) (bs : Bytes) (s : State) : State :=
  let l := stageAt s k
  let l' := { l with bytes := l.bytes ++ bs }
  let t := setStage k l' s
  if (waitingTiles l).length < (waitingTiles l').length then
    { t with tier := { t.tier with writes := t.tier.writes ++ [{ list := k, step := t.runBlk.step }] } }
  else t

/-- The next 32 bytes of a staging list in the injection buffer; the list is complete when its last row has gone
(R221, R222). -/
def takeStaged (stack l : Nat) (s : State) : Option Next × State :=
  let k := stageKey stack false l
  let sl := stageAt s k
  match sl.rows with
  | [] => (none, s)
  | (amem, rowNo, row) :: rest =>
    let left := row.drop 32
    let rows := if left.isEmpty then rest else (amem, rowNo, left) :: rest
    (some { data := row.take 32, amem := amem, row := rowNo, part := 16 - row.length / 32 },
     setStage k { sl with rows := rows, st := if rows.isEmpty ∧ sl.done = sl.total then .complete else sl.st } s)

/-- A gate as the source of what it injects (InFlight.src). -/
def gateSource (g : GateId) : Nat := (if g.stackGate then 512 else 256) + g.site

/-- Detail of a fault at a gate's extraction: the gate, by stack bit, site and link, with bit 31 set (R155; log entry
66). -/
def gateDetail (g : GateId) : Nat := 2 ^ 31 + 2 ^ 30 * b2n g.stackGate + 2 ^ 16 * g.site + g.link

/-- An injection (R148): absent data leaves the slot idle. -/
def gateInjectStep (g : Gate) (e now : Nat) (s : State) : State :=
  let (nx, s) := if g.id.stackGate then takeStaged g.id.site (bits (gateObj e) 15 0) s
    else takeSluice g.id.site (bits (gateObj e) 14 0) s
  match nx with
  | none => s
  | some n =>
    let f := if gateAct e = 1 then landFlit (flitOf n.data) n.amem n.row n.part else dataFlit (flitOf n.data)
    let dst := if gateFace e then gateSouth g.id else gateNorth g.id
    let inp := if gateFace e then Dir.north else Dir.south
    { s with wires := s.wires ++
        [{ dst := dst, inp := inp, due := now + gateDelay g.id, flit := f, src := gateSource g.id }] }

/-- Whether an extraction takes the flits that travel north: toward v = 9 at a stack gate's face 0, into the south
face of a port block (R189). -/
def extractsNorthward (g : GateId) (face : Bool) : Bool := if g.stackGate then !face else face

/-- An extraction (R148, R223, R257): a data flit leaves the link for the buffer; any other flit is a fault of the
router that sent it. -/
def gateExtractStep (g : Gate) (e now : Nat) (s : State) : State × List FaultRec :=
  let north := extractsNorthward g.id (gateFace e)
  let dst := if north then gateNorth g.id else gateSouth g.id
  let inp := if north then Dir.south else Dir.north
  let sender := if north then gateSouth g.id else gateNorth g.id
  let due := now + gateDelay g.id
  match s.wires.find? (fun x => x.dst == dst && x.inp == inp && x.due == due) with
  | none => (s, [clusterFault cMeshFlit sender (gateDetail g.id)])
  | some x =>
    if flitKind x.flit ≠ 1 then (s, [clusterFault cMeshFlit sender (gateDetail g.id)])
    else
      let s := { s with wires := s.wires.filter (fun y => !(y.dst == dst && y.inp == inp && y.due == due)) }
      if g.id.stackGate then
        let total := ((s.tier.stages.filter (fun t => t.1 / 131072 == g.id.site)).map (fun t => t.2.bytes.length)).foldl (· + ·) 0
        if stackExtractSize < total + 32 then
          (s, [{ cause := cTierExtract, place := atStack, loc := g.id.site, detail := gateObj e }])
        else (putExtracted (stageKey g.id.site true (bits (gateObj e) 15 0)) (flitBytes x.flit.data) s, [])
      else
        let b := bits (gateObj e) 3 0
        let buf := Tab.get [] (ringAt s g.id.site).extract b
        if ringExtractSize < buf.length + 32 then
          (s, [{ cause := cRingExtract, place := atRing, loc := g.id.site, detail := b }])
        else
          (updRing g.id.site (fun r =>
            { r with extract := Tab.set [] r.extract b (buf ++ flitBytes x.flit.data) }) s, [])

/-- Put a gate back. -/
def setGate (g : Gate) (s : State) : State :=
  { s with gates := replaceFirst (fun x => x.id == g.id) (fun _ => g) s.gates }

/-- One gate in lc `now` (R148, R189). -/
def gateStep (now : Nat) (sf : State × List FaultRec) (g : Gate) : State × List FaultRec :=
  if g.pos.steps now = false ∨ gateActive g = false then sf
  else
    let e := gateEntry g g.pos.bank g.pos.entry
    let s := setGate { g with pos := g.pos.advance (gateEntry g g.pos.bank) } sf.1
    if gateAct e = 0 then (s, sf.2)
    else if gateAct e = 3 then
      let r := gateExtractStep g e now s
      (r.1, sf.2 ++ r.2)
    else (gateInjectStep g e now s, sf.2)

end Sys2Proof.Machine
end

