-- ==== Sys2Proof/Machine/Gcm.lean ====
section
/-! DEFINITION. AES-256-GCM, the cipher that R249 names, written out (PRESUMED, log entry 13): the AES block cipher of FIPS
197 with a 256-bit key, and the Galois counter mode of SP 800-38D with a 96-bit IV and a 128-bit tag. -/

namespace Sys2Proof

/-! ## The block cipher -/

/-- Times x in the field of AES, whose polynomial is x^8 + x^4 + x^3 + x + 1. -/
def xtime (b : Byte) : Byte := (b <<< 1) ^^^ (if b.msb then 0x1B else 0)

/-- A product in the field of AES, over the bits of the first factor, `n` of them left. -/
def fieldMul : Nat → Byte → Byte → Byte
  | 0, _, _ => 0
  | n + 1, a, b => (if a.getLsbD 0 then b else 0) ^^^ fieldMul n (a >>> 1) (xtime b)

/-- The power 2^(n+1) − 2 of a field element; for n = 7 its inverse, and 0 for 0. -/
def evenPower : Nat → Byte → Byte
  | 0, _ => 1
  | n + 1, b => let s := fieldMul 8 b b; fieldMul 8 s (evenPower n s)

/-- The substitution of AES: the inverse, then the affine map. -/
def subByte (b : Byte) : Byte :=
  let x := evenPower 7 b
  x ^^^ x.rotateLeft 1 ^^^ x.rotateLeft 2 ^^^ x.rotateLeft 3 ^^^ x.rotateLeft 4 ^^^ 0x63

/-- Byte-wise exclusive or. -/
def xorBytes (a b : Bytes) : Bytes := List.zipWith (· ^^^ ·) a b

/-- The constant of round i of the key schedule. -/
def keyConstant : Nat → Byte
  | 0 => 0x8D
  | n + 1 => xtime (keyConstant n)

/-- Word i of the key schedule from the words before it, newest first. -/
def keyWord (i : Nat) (ws : List Bytes) : Bytes :=
  let last := ws.headD []
  let mixed :=
    if i % 8 = 0 then xorBytes ((last.drop 1 ++ last.take 1).map subByte) [keyConstant (i / 8), 0, 0, 0]
    else if i % 8 = 4 then last.map subByte
    else last
  xorBytes (ws.getD 7 []) mixed

/-- Extend the key schedule by `n` words from word i on. -/
def extendKey : Nat → Nat → List Bytes → List Bytes
  | 0, _, ws => ws
  | n + 1, i, ws => extendKey n (i + 1) (keyWord i ws :: ws)

/-- The fifteen round keys of a 256-bit key. -/
def roundKeys (key : Bytes) : List Bytes :=
  chunksB 16 15 (extendKey 52 8 (chunksB 4 8 key).reverse).reverse.flatten

/-- ShiftRows on the sixteen bytes, column by column. -/
def shiftRows (b : Bytes) : Bytes := (List.range 16).map (fun i => b.getD ((i + 4 * (i % 4)) % 16) 0)

/-- MixColumns on one column. -/
def mixColumn (c : Bytes) : Bytes :=
  (List.range 4).map (fun i =>
    let y (k : Nat) : Byte := c.getD ((i + k) % 4) 0
    xtime (y 0) ^^^ (xtime (y 1) ^^^ y 1) ^^^ y 2 ^^^ y 3)

/-- The rounds after the first key: each but the last mixes the columns. -/
def aesRounds : List Bytes → Bytes → Bytes
  | [], b => b
  | [k], b => xorBytes (shiftRows (b.map subByte)) k
  | k :: ks, b => aesRounds ks (xorBytes ((chunksB 4 4 (shiftRows (b.map subByte))).flatMap mixColumn) k)

/-- One block under round keys. -/
def aesBlock (ks : List Bytes) (b : Bytes) : Bytes := aesRounds (ks.drop 1) (xorBytes b (ks.headD []))

/-! ## Galois counter mode -/

/-- A block as a number, its first bit most significant. -/
def blockNat (b : Bytes) : Nat := leNat (padB b 16).reverse

/-- The product of GHASH: bits of the first factor from the most significant, `n` of them left. -/
def ghashMul : Nat → Nat → Nat → Nat
  | 0, _, _ => 0
  | n + 1, x, v =>
    (if bit x n then v else 0) ^^^ ghashMul n x (if v % 2 = 1 then (v / 2) ^^^ (0xE1 * 2 ^ 120) else v / 2)

/-- The blocks of some bytes, the last padded with zeros. -/
def blocksOf (bs : Bytes) : List Bytes := chunksB 16 ((bs.length + 15) / 16) bs

/-- GHASH under a subkey of additional data and ciphertext. -/
def ghash (h : Nat) (aad text : Bytes) : Nat :=
  let lengths := (toLe 8 (8 * text.length) ++ toLe 8 (8 * aad.length)).reverse
  (blocksOf aad ++ blocksOf text ++ [lengths]).foldl (fun y b => ghashMul 128 (y ^^^ blockNat b) h) 0

/-- The counter block i of an IV. -/
def counterBlock (iv : Bytes) (i : Nat) : Bytes := iv ++ (toLe 4 i).reverse

/-- The counter mode over some bytes. -/
def counterMode (ks : List Bytes) (iv bs : Bytes) : Bytes :=
  (blocksOf bs).zipIdx.flatMap (fun x => xorBytes x.1 (aesBlock ks (counterBlock iv (x.2 + 2))))

/-- The tag of a ciphertext. -/
def gcmTag (ks : List Bytes) (iv aad text : Bytes) : Bytes :=
  let h := blockNat (aesBlock ks (zeros 16))
  xorBytes (toLe 16 (ghash h aad text)).reverse (aesBlock ks (counterBlock iv 1))

/-- AES-256-GCM encryption: ciphertext and tag (R249). -/
def gcmSeal (key iv aad plain : Bytes) : Bytes :=
  let ks := roundKeys key
  let text := counterMode ks iv plain
  text ++ gcmTag ks iv aad text

/-- AES-256-GCM decryption: the plaintext when the tag of the sealed body verifies (R249). -/
def gcmOpen (key iv aad body : Bytes) : Option Bytes :=
  let ks := roundKeys key
  let text := body.take (body.length - 16)
  if 16 ≤ body.length ∧ gcmTag ks iv aad text = body.drop (body.length - 16) then some (counterMode ks iv text) else none

end Sys2Proof
end

