-- ==== Sys2Proof/Machine/Tiles.lean ====
section
/-! DEFINITION. Tile frames and their headers (R244, R266, R267), stack slots and units with their ECC (R208 to R212,
R214), carry tiles (R296 to R300), seal tiles (R271). A tile frame is 64 header bytes, 16,384 payload bytes, then the
trailer. -/

namespace Sys2Proof.Machine

/-! ## The tile header (R266, R267) -/

/-- Bytes of a tile payload. -/
def payloadSize : Nat := 16384

/-- TID of a tile frame. -/
def tTid (t : Bytes) : Nat := fieldB t 0 4
/-- VERSION. -/
def tVersion (t : Bytes) : Nat := fieldB t 4 6
/-- ROW. -/
def tRow (t : Bytes) : Nat := fieldB t 0x0A 3
/-- COL. -/
def tCol (t : Bytes) : Nat := fieldB t 0x0D 3
/-- FMT. -/
def tFmt (t : Bytes) : Nat := fieldB t 0x10 1
/-- SHAPE. -/
def tShape (t : Bytes) : Nat := fieldB t 0x11 1
/-- TRB. -/
def tTrb (t : Bytes) : Nat := fieldB t 0x12 2
/-- A payload that the engine writes in a format, from the bytes it has for it: in MXFP6 bytes 12,288–16,383 are zero
(R44). -/
def payloadOf (fmt : Nat) (data : Bytes) : Bytes :=
  if fmt = 6 then data.take 12288 ++ zeros 4096 else data.take payloadSize

/-- Payload of a tile frame. -/
def tPayload (t : Bytes) : Bytes := (t.drop 64).take payloadSize
/-- Trailer of a tile frame. -/
def tTrailer (t : Bytes) : Bytes := t.drop (64 + payloadSize)

/-- Whether FMT and SHAPE hold defined codes that go together (R267). -/
def pairAllowed (fmt shape : Nat) : Bool :=
  let s := shape % 128
  let blk := decide (128 ≤ shape)
  (s == 1 && ((1 ≤ fmt && fmt ≤ 7) || fmt == 0x0C) && (!blk || fmt == 1 || (3 ≤ fmt && fmt ≤ 7))) ||
    (s == 2 && (fmt == 8 || fmt == 0x0B) && !blk) || (s == 3 && (fmt == 9 || fmt == 0x0A || fmt == 2) && !blk) ||
    (s == 0x7F && fmt == 0x0C && !blk)

/-- A header's fields. -/
structure TileHdr where
  tid : Nat
  version : Nat
  row : Nat
  col : Nat
  fmt : Nat
  shape : Nat
deriving DecidableEq, Repr

/-- The fields of a tile frame's header. -/
def hdrOf (t : Bytes) : TileHdr :=
  { tid := tTid t, version := tVersion t, row := tRow t, col := tCol t, fmt := tFmt t, shape := tShape t }

/-- A whole tile frame with both CRCs computed (R266). -/
def buildTile (h : TileHdr) (payload trailer : Bytes) : Bytes :=
  let head := toLe 4 h.tid ++ toLe 6 h.version ++ toLe 3 h.row ++ toLe 3 h.col ++ toLe 1 h.fmt ++ toLe 1 h.shape ++
    toLe 2 trailer.length ++ toLe 4 (crc32c (payload ++ trailer)).toNat ++ zeros 36
  head ++ toLe 4 (crc32c head).toNat ++ payload ++ trailer

/-- Whether the header of a tile frame is sound (R266). -/
def headerSound (t : Bytes) : Bool :=
  fieldB t 0x3C 4 == (crc32c (t.take 60)).toNat && zeroB t 0x18 36 && pairAllowed (tFmt t) (tShape t) &&
    t.length == 64 + payloadSize + tTrb t && tTrb t % 8 == 0 && decide (tTrb t ≤ 1024)

/-- Whether a tile frame passes its header and payload CRCs (R222, R254 check 7, R266). -/
def tileGood (t : Bytes) : Bool := headerSound t && fieldB t 0x14 4 == (crc32c (t.drop 64)).toNat

/-! ## Slots (R210, R211) -/

/-- Slots of one stack. -/
def slotsPerStack : Nat := 4225031

/-- Key of a stack's byte address in stack memory. -/
def stackKey (stack addr : Nat) : Nat := stack * 2 ^ 37 + addr

/-- Key of the first byte of slot (n, s). -/
def slotKey (stack slot : Nat) : Nat := stackKey stack (17472 * slot)

/-- Bytes of a slot. -/
def slotSize : Nat := 17472

/-- Write stack bytes; the granules written hold fresh check bits (R209). -/
def writeStack (key : Nat) (data : Bytes) (s : State) : State :=
  { s with stackMem := Mem.write 0 s.stackMem key data,
           stackUpsets := Tab.clearRange s.stackUpsets (key / 16) ((key + data.length + 15) / 16) }

/-- Count one corrected stack granule (R209, R230, R231). -/
def noteStackEcc (granule : Nat) (s : State) : State :=
  let stack := granule / 2 ^ 33
  { s with tier := { s.tier with
      eccCount := satAdd s.tier.eccCount 1, eccStack := stack, eccAddr := granule * 16 % 2 ^ 37 / 512,
      stackEcc := Tab.upd 0 s.tier.stackEcc stack (fun x => satAdd x 1) } }

/-- Read stack bytes through the correction of R209: the bytes, whether a granule was uncorrectable, and the counts. -/
def readStack (key n : Nat) (s : State) : Bytes × Bool × State :=
  let hit := s.stackUpsets.filter (fun e => decide (key / 16 ≤ e.1) && decide (e.1 < (key + n + 15) / 16))
  (Mem.read 0 s.stackMem key n, hit.any (fun e => e.2 == 2),
    hit.foldl (fun s e => if e.2 = 1 then noteStackEcc e.1 s else s) s)

/-- A slot's contents as a tile frame: header, payload, then TRB trailer bytes (R211, R266). -/
def frameOfSlot (bs : Bytes) : Bytes :=
  let head := (bs.drop payloadSize).take 64
  head ++ bs.take payloadSize ++ (bs.drop (payloadSize + 64)).take (min 1024 (fieldB head 0x12 2))

/-- A tile frame as the bytes of a slot. -/
def slotOfFrame (t : Bytes) : Bytes := tPayload t ++ t.take 64 ++ tTrailer t

/-! ## Units (R212, R214) -/

/-- The map entry of a unit. -/
def mapAt (s : State) (u : Nat) : MapEntry := Tab.get MapEntry.reset s.tier.map u

/-- Change the map entry of a unit. -/
def updMap (u : Nat) (f : MapEntry → MapEntry) (s : State) : State :=
  { s with tier := { s.tier with map := Tab.upd MapEntry.reset s.tier.map u f } }

/-- Whether a slot holds a resident unit: its bit of the slot bitmap (R210). -/
def slotTaken (s : State) (stack slot : Nat) : Bool :=
  s.tier.map.any (fun e => e.2.res && e.2.stack == stack && e.2.slot == slot)

/-- Key of an account, tier 1 to 3 (R215). -/
def acctKey (tier a : Nat) : Nat := 64 * (tier - 1) + a

/-- A quota account. -/
def acctAt (s : State) (tier a : Nat) : Account := Tab.get Account.reset s.tier.accts (acctKey tier a)

/-- Whether the account of a resident unit gives the host access (R215). -/
def hostAcc (s : State) (u : Nat) : Bool := (acctAt s 1 (mapAt s u).acct).hostAcc

/-- Write a tile frame to a resident unit; the unit becomes dirty (R225). -/
def writeUnit (u : Nat) (t : Bytes) (s : State) : State :=
  let e := mapAt s u
  updMap u (fun e => { e with dirty := true }) (writeStack (slotKey e.stack e.slot) (slotOfFrame t) s)

/-- Read the tile frame of a resident unit. -/
def readUnit (u : Nat) (s : State) : Bytes × Bool × State :=
  let e := mapAt s u
  let r := readStack (slotKey e.stack e.slot) slotSize s
  (frameOfSlot r.1, r.2.1, r.2.2)

/-! ## Carry tiles (R296 to R300) -/

/-- Bits of an SC entry on a hop (R297). -/
def scWidth (hops : Nat) : Nat := clog2 (hops + 1) + 1

/-- Lane tiles a wire tile holds at a width (R297). -/
def lanesPerWire (w : Nat) : Nat := 32 / w

/-- WIDTH, LANES and HOPS of a carry tile's trailer. -/
def trWidth (t : Bytes) : Nat := fieldB (tTrailer t) 0 1
/-- LANES. -/
def trLanes (t : Bytes) : Nat := fieldB (tTrailer t) 1 1
/-- HOPS. -/
def trHops (t : Bytes) : Nat := fieldB (tTrailer t) 2 2
/-- Count word i of a carry tile. -/
def countWord (t : Bytes) (i : Nat) : Nat := fieldB (tTrailer t) (8 + 2 * i) 2

/-- Entry e of lane g of a wire tile at width w, two's complement. -/
def wireEntry (w g e : Nat) (payload : Bytes) : Int :=
  sext w (leNat ((payload.drop ((4096 * w * g + w * e) / 8)).take 3) / 2 ^ ((w * e) % 8) % 2 ^ w)

/-- Entry e of a lane tile. -/
def laneEntry (e : Nat) (payload : Bytes) : Int := sext 32 (fieldB payload (4 * e) 4)

/-- The structure check of R300; `wire` at a carry sluice. -/
def carryStructure (wire : Bool) (t : Bytes) : Bool :=
  let fmt := tFmt t
  let g := trLanes t
  let w := trWidth t
  tShape t == 3 && (fmt == 9 || fmt == 0x0A || fmt == 2) && zeroB (tTrailer t) 4 4 &&
    (if wire && fmt == 9 then
       decide (1 ≤ trHops t) && decide (trHops t ≤ 1023) && w == scWidth (trHops t) && decide (1 ≤ g) &&
         decide (g ≤ lanesPerWire w) && tTrb t == 8 + 32 * g &&
         (List.range (16 * g)).all (fun i => decide (countWord t i < 1024)) && zeroB (tPayload t) (512 * w * g) payloadSize
     else w == 32 && g == 1 && tTrb t == 40 && (List.range 16).all (fun i => decide (countWord t i < 1024)))

/-- The count check of R300. -/
def carryCounts (hops : Nat) (t : Bytes) : Bool :=
  trHops t == hops && (List.range (16 * trLanes t)).all (fun i => countWord t i == trHops t)

/-- The entry check of R300 for SC tiles. -/
def carryEntries (t : Bytes) : Bool :=
  if tFmt t != 9 then true
  else
    let h : Int := trHops t
    let ok (v : Int) : Bool := decide (v ≤ h) && decide (-h ≤ v) && (v - h) % 2 == 0
    if trWidth t = 32 then (List.range 4096).all (fun e => ok (laneEntry e (tPayload t)))
    else (List.range (trLanes t)).all (fun g => (List.range 4096).all (fun e => ok (wireEntry (trWidth t) g e (tPayload t))))

/-- The first failed carry check as a cause code, 0 for none (R300). -/
def carryCheck (wire entries : Bool) (hops : Nat) (t : Bytes) : Nat :=
  if carryStructure wire t = false then cCarryFormat
  else if carryCounts hops t = false then cCarryCount
  else if entries && !carryEntries t then cCarryCount
  else 0

/-- Trailer of a lane tile (R296). -/
def laneTrailer (hops : Nat) (counts : List Nat) : Bytes := [32, 1] ++ toLe 2 hops ++ zeros 4 ++ counts.flatMap (toLe 2)

/-- The lane tiles of an accepted carry tile (R299). -/
def unpackWire (t : Bytes) : List Bytes :=
  if trWidth t = 32 then [t]
  else
    (List.range (trLanes t)).map (fun g =>
      buildTile { hdrOf t with col := tCol t + g }
        ((List.range 4096).flatMap (fun e => toLe 4 (BitVec.ofInt 32 (wireEntry (trWidth t) g e (tPayload t))).toNat))
        (laneTrailer (trHops t) ((List.range 16).map (fun b => countWord t (16 * g + b)))))

/-- Pack lane tiles of one hop into a wire tile (R297, R298). -/
def packWire (ts : List Bytes) : Bytes :=
  match ts with
  | [] => []
  | t :: _ =>
    let w := scWidth (trHops t)
    let region (x : Bytes) : Bytes :=
      toLe (512 * w) (packBits w ((List.range 4096).map (fun e => (BitVec.ofInt w (laneEntry e (tPayload x))).toNat)))
    let payload := padB (ts.flatMap region) payloadSize
    buildTile (hdrOf t) payload
      (toLe 1 w ++ toLe 1 ts.length ++ toLe 2 (trHops t) ++ zeros 4 ++
        ts.flatMap (fun x => (List.range 16).flatMap (fun b => toLe 2 (countWord x b))))

/-! ## Seal tiles (R271) -/

/-- STATUS of a seal tile. -/
def sealStatus (t : Bytes) : Nat := fieldB (tPayload t) 0x20 4
/-- TILES of a seal tile. -/
def sealTiles (t : Bytes) : Nat := fieldB (tPayload t) 0x24 4
/-- DIGEST of a seal tile. -/
def sealDigest (t : Bytes) : Bytes := (tPayload t).take 32

/-- A seal tile with STATUS 0 (R271, R282). -/
def sealTile (tid version tiles : Nat) (digest : Bytes) : Bytes :=
  buildTile { tid := tid, version := version, row := 0xFFFFFF, col := 0xFFFFFF, fmt := 0x0C, shape := 0x7F }
    (padB (digest ++ zeros 4 ++ toLe 4 tiles) payloadSize) []

end Sys2Proof.Machine
end

