-- ==== Sys2Proof/Machine/Link.lean ====
section
/-! DEFINITION. The link layer of one Ehrat port: bundles, flits, retry buffer, credits, sealing, and the errors of a
frame (R235 to R245, R249 to R251). A frame starts a flit of its own and the rest of its last flit is padding, which R237
leaves to the sender (log entry 24). -/

namespace Sys2Proof.Machine

/-! ## Bundles (R250, R251) -/

/-- The port of a bundle with a member number. -/
def memberPort (s : State) (bundle m : Nat) : Option Nat :=
  (s.ports.find? (fun e => e.2.role != 0 && e.2.bundle == bundle && e.2.member == m)).map Prod.fst

/-- Number of ports of a bundle. -/
def bundleSize (s : State) (bundle : Nat) : Nat :=
  (s.ports.filter (fun e => e.2.role != 0 && e.2.bundle == bundle)).length

/-- The port on which frame i of a descriptor on a bundle travels (R251). -/
def bundlePort (s : State) (bundle i : Nat) : Option Nat := memberPort s bundle (i % max 1 (bundleSize s bundle))

/-- The bundle of the first port with a role. -/
def roleBundle (s : State) (role : Nat) : Option Nat := (s.ports.find? (fun e => e.2.role == role)).map (fun e => e.2.bundle)

/-- HEADGATE (R250). -/
def rHeadgate : Nat := 1
/-- OUTLET. -/
def rOutlet : Nat := 2
/-- CHAIN-IN. -/
def rChainIn : Nat := 6
/-- CHAIN-OUT. -/
def rChainOut : Nat := 7
/-- TIER. -/
def rTier : Nat := 8
/-- TEE. -/
def rTee : Nat := 9

/-! ## Sealing (R249) -/

/-- The key slot of an epoch. -/
def keySlot (p : Port) (epoch : BitVec 8) : Option KeySlot :=
  (if epoch.getLsbD 0 then p.key1 else p.key0).bind (fun k => if k.epoch = epoch then some k else none)

/-- IV of a sealed frame. -/
def sealIv (salt : Bytes) (vl ctr : Nat) : Bytes := salt ++ toLe 1 vl ++ [0] ++ toLe 6 ctr

/-- A lane of a port. -/
def laneAt (p : Port) (v : Nat) : Lane := Tab.get Lane.reset p.lanes v

/-- Put a lane back. -/
def setLane (v : Nat) (l : Lane) (p : Port) : Port := { p with lanes := Tab.set Lane.reset p.lanes v l }

/-- The header of a bulk frame (R244). -/
def bulkHeader (p : Port) (ftype flags len obj arg ctr : Nat) : Bytes :=
  toLe 1 ftype ++ toLe 1 flags ++ toLe 2 p.tag.toNat ++ toLe 1 p.epoch.toNat ++ zeros 3 ++ toLe 4 len ++ toLe 4 obj ++
    toLe 8 arg ++ toLe 6 ctr ++ zeros 2

/-- A plain bulk frame. -/
def bulkFrame (p : Port) (ftype obj arg : Nat) (body : Bytes) : Bytes :=
  bulkHeader p ftype 0 body.length obj arg 0 ++ body

/-- A frame as it leaves: sealed when the port requires sealing. -/
def sealFrame (p : Port) (k : KeySlot) (vl : Nat) (f : Bytes) : Bytes :=
  let body := f.drop 32
  let ctr := (laneAt p vl).sealTx
  let h := bulkHeader p (fieldB f 0 1) 1 (body.length + 16) (fieldB f 12 4) (fieldB f 16 8) ctr
  h ++ gcmSeal k.key (sealIv k.saltTx vl ctr) (h.take 30) body

/-! ## Flits (R235, R240, R242) -/

/-- A flit with its header and CRC (R235). -/
def makeFlit (kind vl sof seq : Nat) (body : Bytes) : Bytes :=
  let b := toLe 12 (kind + vl * 4 + sof * 32 + seq * 1024) ++ padB (body.take 240) 240
  b ++ toLe 4 (crc32c b).toNat

/-- An idle flit that names a sequence of a channel, to acknowledge up to it (kind 1) or to ask for a replay from it
(kind 2), or none (kind 0); with the credit limit of a lane, if one is given (R235, R240, R242). -/
def signalFlit (kind ch seq : Nat) (credit : Option (Nat × Nat)) : Bytes :=
  let c := match credit with
    | some (v, limit) => v * 2 ^ 64 + 2 ^ 67 + limit % 2 ^ 16 * 2 ^ 68
    | none => 0
  let b := toLe 12 (31 * 32 + kind * 2 ^ 34 + ch * 2 ^ 36 + seq * 2 ^ 40 + c) ++ zeros 240
  b ++ toLe 4 (crc32c b).toNat

/-- An idle flit leaves with a signal (R236, R240, R242). -/
def signal (kind ch seq : Nat) (credit : Option (Nat × Nat)) (p : Port) : Port :=
  { p with out := p.out ++ [signalFlit kind ch seq credit] }

/-- Credits left on a lane (R242). -/
def credits (l : Lane) : Nat :=
  let d := (l.limit + 2 ^ 32 - l.fs) % 2 ^ 32
  if d < 2 ^ 31 then d else 0

/-- Bulk flits in the retry buffer. -/
def bulkKept (p : Port) : Nat := (p.retry.filter (fun x => x.ch != 8)).length

/-! ## Sending (R236, R237, R240, R242, R243) -/

/-- The posted frame that a lane sends from. -/
def headFrame (p : Port) (v : Nat) : Option TxFrame := p.txq.find? (fun f => f.vl == v)

/-- Whether a lane is out of seal counters for the frame it would start (R249). -/
def laneSpent (p : Port) (v : Nat) : Bool :=
  p.sealedReq && (keySlot p p.epoch).isSome && decide (2 ^ 48 ≤ (laneAt p v).sealTx) &&
    (headFrame p v).any (fun f => f.fresh)

/-- Whether a lane has a flit ready and a credit; where the port seals, a frame starts only under the current epoch's key
(R237, R249). -/
def laneReady (p : Port) (v : Nat) : Bool :=
  match headFrame p v with
  | none => false
  | some f =>
    decide (0 < credits (laneAt p v)) && (!f.fresh || !p.sealedReq || (keySlot p p.epoch).isSome) && !laneSpent p v

/-- The next lane to send, in round-robin order (R237). -/
def nextLane (p : Port) : Option Nat := ((List.range 8).map (fun i => (p.rr + 1 + i) % 8)).find? (laneReady p)

/-- A frame as its first flit is made: sealed where the port requires it (R249). -/
def begun (f : TxFrame) (p : Port) : Bytes :=
  match f.fresh && p.sealedReq, keySlot p p.epoch with
  | true, some k => sealFrame p k f.vl f.bytes
  | _, _ => f.bytes

/-- A lane after it has first-sent a flit; every 65,536th owes an AUDIT frame (R242, R243, R249). -/
def sentOn (sealed : Bool) (l : Lane) : Lane :=
  let fs := (l.fs + 1) % 2 ^ 32
  { l with
    fs := fs, sendSeq := (l.sendSeq + 1) % 2 ^ 24, sealTx := if sealed then l.sealTx + 1 else l.sealTx,
    audits := if fs % 65536 = 0 then l.audits ++ [(fs, l.limit)] else l.audits }

/-- A lane sends one flit of its frame: the flit goes out and into the retry buffer, and a carry counts with its first
flit (R240, R242, R301). -/
def sendFlitOn (v : Nat) (p : Port) : Port :=
  match headFrame p v with
  | none => p
  | some f =>
    let l := laneAt p v
    let bytes := begun f p
    let rest := bytes.drop 240
    let flit := makeFlit 1 v (if f.fresh then 0 else 31) l.sendSeq bytes
    let kept : Sent := { ch := v, seq := l.sendSeq, bytes := flit, owners := if rest.isEmpty then [(f.owner, f.tiles)] else [] }
    setLane v (sentOn (f.fresh && p.sealedReq) l)
      { p with
        rr := v, retry := p.retry ++ [kept], out := p.out ++ [flit],
        cnt := if f.fresh ∧ f.carry then { p.cnt with carryTx := satAdd p.cnt.carryTx f.tiles } else p.cnt,
        txq := if rest.isEmpty then removeFirst (fun x => x.vl == v) p.txq
               else replaceFirst (fun x => x.vl == v) (fun x => { x with bytes := rest, fresh := false }) p.txq }

/-- Send bulk flits while a lane is ready and the retry buffer has an entry; `fuel` bounds the flits (R237, R240). -/
def pumpBulk : Nat → Port → Port
  | 0, p => p
  | fuel + 1, p =>
    if 3968 ≤ bulkKept p then p
    else
      match nextLane p with
      | none => p
      | some v => pumpBulk fuel (sendFlitOn v p)

/-- Flits that the posted frames make. -/
def postedFlits (p : Port) : Nat := (p.txq.map (fun f => (f.bytes.length + 16 + 239) / 240)).foldl (· + ·) 0

/-- Put posted control frames in control flits, five each; `fuel` bounds the flits (R236, R246). -/
def pumpControl : Nat → Port → Port
  | 0, p => p
  | n + 1, p =>
    if p.ctlq.isEmpty ∨ 4096 ≤ p.retry.length then p
    else
      let now := p.ctlq.take 5
      let bytes := makeFlit 2 0 0 p.ctlSend (now.flatMap Prod.snd)
      let kept : Sent := { ch := 8, seq := p.ctlSend, bytes := bytes, owners := now.map (fun f => (f.1, 1)) }
      pumpControl n
        { p with
          ctlq := p.ctlq.drop 5, ctlSend := (p.ctlSend + 1) % 2 ^ 24, retry := p.retry ++ [kept], out := p.out ++ [bytes] }

/-- Whether a port's flit stream runs, so that control and idle flits leave it. -/
def streams (q : Port) : Bool := q.st == .up || q.st == .ceased || (q.st == .training && q.initSent)

/-- Send what a port can send; in the safe state no bulk flit leaves (R399). -/
def pumpPort (safe : Bool) (p : Port) : Port :=
  let p := if streams p then pumpControl p.ctlq.length p else p
  if p.st = .up ∧ safe = false then pumpBulk (postedFlits p) p else p

/-- Resend a channel's kept flits from a sequence onward, byte for byte (R240). -/
def resend (ch seq : Nat) (p : Port) : Port :=
  { p with out := p.out ++
      (p.retry.filter (fun f => f.ch == ch && decide ((f.seq + 2 ^ 24 - seq) % 2 ^ 24 < 2 ^ 23))).map Sent.bytes }

/-- Resend every kept flit of the link in sequence order, at the end of a retrain (R241); in the safe state those of the
control channel alone (R399; log entry 98). -/
def resendAll (safe : Bool) (p : Port) : Port :=
  { p with out := p.out ++ (p.retry.filter (fun f => f.ch != 9 && (!safe || f.ch == 8))).map Sent.bytes }

/-- Whether the outputs are as in the safe state: in it, and in the salvage state that follows it, where nothing has been
cleared (R331, R360, R399). -/
def isSafe (s : State) : Bool := s.dev.st == .safe || (s.dev.st == .salvage && s.safe.safe)

/-- Whether a port may still take bulk frames to send (R241, R246). -/
def takesBulk (p : Port) : Bool := p.st == .up || p.st == .retraining || p.st == .training

/-- A control frame with a port's tag and epoch (R246). -/
def controlFrame (p : Port) (ctype : Nat) (payload : Bytes) : Bytes :=
  padB (toLe 1 ctype ++ [0] ++ toLe 2 p.tag.toNat ++ toLe 1 p.epoch.toNat ++ zeros 3 ++ payload) 48

/-- Whether a frame or flit of a descriptor still waits to be sent or acknowledged on a port (R259). -/
def owes (owner : Nat) (p : Port) : Bool :=
  p.txq.any (fun f => f.owner == owner) || p.ctlq.any (fun f => f.1 == owner) ||
    p.retry.any (fun f => f.owners.any (fun o => o.1 == owner))

/-- Tiles of a descriptor that a port has not sent whole or whose last flit is not acknowledged (R259, R261). -/
def owedTiles (owner : Nat) (p : Port) : Nat :=
  ((p.txq.filter (fun f => f.owner == owner)).map TxFrame.tiles ++
    p.retry.flatMap (fun f => (f.owners.filter (fun o => o.1 == owner)).map Prod.snd)).foldl (· + ·) 0

/-- A flit that belongs to a descriptor no more. -/
def disown (owner : Nat) (f : Sent) : Sent := { f with owners := f.owners.filter (fun o => o.1 != owner) }

/-- Withdraw the frames of a completed descriptor that have not started; what has started belongs to none any more (R241,
R246, R263). -/
def withdraw (owner : Nat) (p : Port) : Port :=
  { p with
    txq := (p.txq.filter (fun f => !(f.owner == owner && f.fresh))).map
      (fun f => if f.owner = owner then { f with owner := 0, tiles := 0 } else f),
    ctlq := p.ctlq.filter (fun f => f.1 != owner),
    retry := (p.retry.map (disown owner)).filter (fun f => !(f.ch == 9 && f.owners.isEmpty)) }

/-! ## Received frames (R237, R244, R245, R247, R249, R274) -/

/-- OBJ's sluice index of a frame. -/
def fIndex (f : Bytes) : Nat := fieldB f 12 2 % 32768
/-- ARG's tile index of a frame. -/
def fTile (f : Bytes) : Nat := fieldB f 16 2
/-- Body of a bulk frame. -/
def fBody (f : Bytes) : Bytes := f.drop 32

/-- Body bytes that a frame type takes, without a seal (R244, R245, R274). -/
def bodyOk (ftype len : Nat) : Bool :=
  if ftype = 3 then len == 8 else if ftype = 5 then len == 16 else decide (64 + payloadSize ≤ len)

/-- Whether the header of a bulk frame received on a lane of a port is a frame error (R245, R278). -/
def frameError (role vl : Nat) (f : Bytes) : Bool :=
  let ft := fieldB f 0 1
  let fl := fieldB f 1 1
  let len := fieldB f 8 4
  let obj := fieldB f 12 4
  let arg := fieldB f 16 8
  !(decide (1 ≤ ft) && decide (ft ≤ 5)) || decide (2 ≤ fl) || !zeroB f 5 3 || !zeroB f 30 2 ||
    (fl == 0 && !zeroB f 24 6) || len % 8 != 0 || decide (32768 < len) || decide (len < 16 * fl) ||
    !bodyOk ft (len - 16 * fl) ||
    ((ft == 3 || ft == 5) != (vl == 6)) || (ft == 5 && role != rChainOut) ||
    (ft == 1 && (decide (2 ^ 15 ≤ obj) || decide (2 ^ 16 ≤ arg))) || (ft == 2 && (obj != 0 || decide (2 ^ 48 ≤ arg))) ||
    (ft == 3 && (obj == 0 || decide (2 ^ 16 ≤ obj) || decide (2 ^ 48 ≤ arg))) || (ft == 4 && decide (2 ^ 16 ≤ arg)) ||
    (ft == 5 && (decide (2 ^ 15 ≤ obj) || decide (2 ^ 48 ≤ arg)))

/-- Whether the body of a plain frame is a frame error: reserved bytes of a HOME_READ, ranges and reserved bits of a
SHARD_REQ (R10, R245, R274). -/
def bodyError (f : Bytes) : Bool :=
  let b := fBody f
  (fieldB f 0 1 == 3 && !zeroB b 6 2) ||
    (fieldB f 0 1 == 5 && !(decide (fieldB b 4 4 < 65536) && decide (fieldB b 8 4 ≤ 65536) && decide (fieldB b 12 4 < 2)))

/-- Bytes of a whole frame in plain form; one whose seal has been opened has lost its tag. -/
def frameSize (f : Bytes) : Nat := 32 + fieldB f 8 4 - 16 * (fieldB f 1 1 % 2)

/-- Bytes that a bulk frame reserves in a landing buffer: its header and its full LENGTH (R256). -/
def reserved (f : Bytes) : Nat := 32 + fieldB f 8 4

/-- Whether a frame in plain form is whole. -/
def whole (f : Bytes) : Bool := decide (frameSize f ≤ f.length)

/-- Whether a frame carries a port's job tag and epoch (R247). -/
def passesFilter (q : Port) (f : Bytes) : Bool := fieldB f 2 2 == q.tag.toNat && fieldB f 4 1 == q.epoch.toNat

/-- The plain form of a received frame; none when it fails the seal (R249). -/
def openSeal (q : Port) (vl : Nat) (f : Bytes) : Option Bytes :=
  if fieldB f 1 1 = 0 then (if q.sealedReq then none else some f)
  else
    match keySlot q (BitVec.ofNat 8 (fieldB f 4 1)) with
    | none => none
    | some k =>
      let ctr := fieldB f 24 6
      if (match (laneAt q vl).sealRx with | some c => decide (c < ctr) | none => true) then
        (gcmOpen k.key (sealIv k.saltRx vl ctr) (f.take 30) (f.drop 32)).map (fun b => f.take 32 ++ b)
      else none

end Sys2Proof.Machine
end

