-- ==== Sys2Proof/Machine/Safe.lean ====
section
/-! DEFINITION. The entry to the safe state: registers, outputs, CEASE on the ports, the end of background work (R335, R339,
R396 to R402, R429). -/

namespace Sys2Proof.Machine

/-- A CEASE control frame (R246). -/
def ceaseFrame (s : State) (p : Port) : Bytes :=
  padB ([3, 0] ++ toLe 2 p.tag.toNat ++ toLe 1 p.epoch.toNat ++ zeros 3 ++ toLe 8 s.dev.physId.toNat) 48

/-- What entry to the safe state does to a port (R399, R402): control frames not yet placed are withdrawn, and a port that is
up, retraining or ceased sends one CEASE in its next control slot: at once where its flit stream runs, and after a retrain
under way (DEDUCED, log entry 98). No bulk flit leaves. -/
def ceasePort (s : State) (p : Port) : Port :=
  pumpPort true
    { p with ctlq := if p.st = .up ∨ p.st = .retraining ∨ p.st = .ceased then [(0, ceaseFrame s p)] else [] }

/-- The result of a background command stopped by the safe state (R339; log entry 17). -/
def stopBg (b : Option BgCmd) (m : Mailbox) : Mailbox :=
  let stopped (op : Nat) : Mailbox :=
    { m with bg := m.beside, beside := none, bgRes := { BgResult.reset with dstatus := .state, opcode := op } }
  match b with
  | some .verify => stopped 0xC102
  | some .configure => stopped 0xC103
  | some (.relief _) => stopped 0xC104
  | some .warmStart => stopped 0xC108
  | some .endLend => stopped 0xC10D
  | _ => m

/-- The register and output effects of an entry to the safe state with its first fault (R335, R396 to R399, R429):
SAFE_STATUS, SAFE_TIME, the event, STATE 7, CEASE on the ports, MSI-X vector 1 and FAULT_N. The run is over, and its run
block is kept no longer (R160, R177). -/
def enterSafe (f : FaultRec) (s : State) : State :=
  let s := noteFault f s
  raiseMsix 1
    { s with
      safe := { safe := true, cause := BitVec.ofNat 8 f.cause, place := BitVec.ofNat 4 f.place,
                loc := BitVec.ofNat 44 f.loc, time := BitVec.ofNat 64 (nowNs s), frozen := s.lc - s.lastRelease },
      dev := { s.dev with st := .safe, loadOpen := false },
      ports := Tab.mapVals Port.reset (fun _ p => ceasePort s p) s.ports,
      runBlk := RunBlock.reset,
      mbx := stopBg s.mbx.bg s.mbx,
      power := { s.power with fault := true } }

end Sys2Proof.Machine
end

