-- ==== Sys2Proof/Machine/Clock.lean ====
section
/-! DEFINITION. One lc of the lattice (R7, R94, R95, R206), the fatal-fault operation (R396 to R398), and the resume
128 lc after a release (R97, R144, R154). -/

namespace Sys2Proof.Machine

/-- The participants of the configured manifest (R152). -/
def participants (s : State) : List Nat :=
  match s.image with
  | some i => i.parts
  | none => []

/-- Whether the lattice clock runs: STATE 6 (R331). -/
def latticeRuns (s : State) : Bool := s.dev.st == .running

/-! ## Effects that fall due -/

/-- Effects that read memory in their lc, and so act in it; the others act at the end of the lc before. -/
def Late.reads : Late → Bool
  | .addRow .. => true
  | .tread .. => true
  | .gread .. => true
  | _ => false

/-- The generator state in 32 bytes (R78). -/
def genOf (bs : Bytes) : GenState :=
  { seed := BitVec.ofNat 64 (fieldB bs 0 8), tid := BitVec.ofNat 32 (fieldB bs 8 4), step := BitVec.ofNat 48 (fieldB bs 16 6),
    ibase := BitVec.ofNat 48 (fieldB bs 24 6) }

/-- Change a vector core. -/
def updVec (v : Nat) (f : VecCore → VecCore) (cl : Cluster) : Cluster := setVec v (f (vecCore v cl)) cl

/-- An effect takes place: `now` is the first lc that sees it. A result row due at the matrix-to-vector queue finds it as
the pops of its lc have left it (log entry 78). -/
def applyLate (c now : Nat) (dropped : List Nat) (e : Late) (w : Work) : Work :=
  match e with
  | .g k r v => w.on (fun cl => writeG (inGang cl) k r v cl)
  | .a r v _ => w.on (fun cl => { cl with a := Tab.set 0 cl.a r v })
  | .v core r x mask => w.on (fun cl => writeV core r (blend (readV core r cl) x mask) cl)
  | .m core r x mask => w.on (fun cl => writeM core r ((readM core r cl &&& ~~~mask) ||| (x &&& mask)) cl)
  | .mem a data id _ => if dropped.contains id then w else commitMem c a data w
  | .dig core h => w.on (updVec core (fun x => { x with dig := x.dig + h }))
  | .dclr core => w.on (updVec core (fun x => { x with dig := 0 }))
  | .gen core g => w.on (updVec core (fun x => { x with gen := g }))
  | .adv core => w.on (updVec core (fun x => { x with gen := { x.gen with ibase := x.gen.ibase + 32 } }))
  | .mvq row =>
    if 64 ≤ w.cl.mvq.length then w.fail c cCollision 30 else w.on (fun cl => { cl with mvq := cl.mvq ++ [row] })
  | .num nan inf sat => w.on (countNum nan inf sat)
  | .land amem row => w.on (landCount amem row)
  | .vstart core pc => w.on (updVec core (fun x => { x with st := .issuing, pc := pc, ready := now, repLeft := 0 }))
  | .s1start pc => w.on (fun cl => { cl with s1 := { cl.s1 with st := .issuing, pc := pc, ready := now, loops := [], rets := [] } })
  | .addRow core addr row blk sa sb fa fb => addRowStep c now core addr row blk sa sb fa fb w
  | .tread core deriv addr j =>
    let n := if j = 8 then 16 else 512
    delivered w (readMem c now (addr + 512 * j) 512 w) (fun data w =>
      let put (u : TableUnit) : TableUnit := { u with img := Mem.write 0 u.img (512 * j) (data.take n) }
      w.on (updVec core (fun x => if deriv then { x with der := put x.der } else { x with fwd := put x.fwd })))
  | .gread core addr =>
    delivered w (readMem c now addr 32 w) (fun data w => w.on (later (now + 5) (.gen core (genOf data))))

/-- The effects of a cluster that fall due at `t`, reading or not. -/
def dueLate (reading : Bool) (t : Nat) (cl : Cluster) : List Late :=
  (cl.late.filter (fun e => e.1 == t && e.2.reads == reading)).map Prod.snd

/-- The reads that lc `now` owes, and the matrix cores' work in it. -/
def clusterWork (c now : Nat) (w : Work) : Work :=
  let w := (dueLate true now w.cl).foldl (fun w e => applyLate c now [] e w) w
  (List.range 12).foldl (matStep c now) w

/-- The end of lc `now` in a cluster: conflicts are found, each bank by name, and everything but the colliding writes
commits (R95). -/
def clusterCommit (c now : Nat) (w : Work) : Work :=
  let w := (badBanks now w.cl).foldl (fun w b => w.fail c cCollision (256 + b)) w
  let dropped := droppedIds now w.cl
  let due := dueLate false (now + 1) w.cl
  let w := w.on (fun cl =>
    { cl with late := cl.late.filter (fun e => decide (now + 1 < e.1) || (e.2.reads && decide (now < e.1))),
              uses := cl.uses.filter (fun u => decide (now < u.lc)) })
  (due.foldl (fun w e => applyLate c (now + 1) dropped e w) w).on (fun cl => { cl with counted := [] })

/-- Do a cluster's part of an lc, gathering faults. -/
def onCluster (f : Nat → Work → Work) (sf : State × List FaultRec) (c : Nat) : State × List FaultRec :=
  let w := f c { cl := clusterAt sf.1 c, bad := [] }
  (setCluster c w.cl sf.1, sf.2 ++ w.bad)

/-- A participant's router in lc `now`, unless a command has had it step already. -/
def routerTurn (now : Nat) (sf : State × List FaultRec) (c : Nat) : State × List FaultRec :=
  let p := (clusterAt sf.1 c).pos
  if p.run && decide (now < p.nextLc) then sf
  else
    let r := routerStep c now sf.1
    (r.1, sf.2 ++ r.2)

/-- Flits that reach the router of a cluster that is no participant (R140). -/
def strayFlits (now : Nat) (s : State) : List FaultRec :=
  (s.wires.filter (fun x => x.due == now && isCluster x.dst && !(participants s).contains x.dst)).map
    (fun x => inputFault x.dst cMeshLink x.inp)

/-- Everything that happens in the current lc besides the commands given in it, up to its end. -/
def finishLc (s : State) : State × List FaultRec :=
  let now := s.lc
  let ps := participants s
  let sf := ps.foldl (onCluster (fun c w => clusterWork c now w)) (s, [])
  let sf := ps.foldl (routerTurn now) sf
  let sf := (sf.1, sf.2 ++ strayFlits now sf.1)
  let sf := sf.1.gates.foldl (gateStep now) sf
  let sf := ps.foldl (onCluster (fun c w => clusterCommit c now w)) sf
  ({ sf.1 with wires := sf.1.wires.filter (fun x => decide (now < x.due)) }, sf.2)

/-! ## Fatal faults -/

/-- The fault with the lowest cause code, the first of them when several share it (R397). -/
def lowest (f : FaultRec) (fs : List FaultRec) : FaultRec := fs.foldl (fun m x => if x.cause < m.cause then x else m) f

/-- Faults of one cycle in ascending code order, those of one code as they came (R368). -/
def byCause (fs : List FaultRec) : List FaultRec :=
  fs.foldr (fun f rs =>
    rs.takeWhile (fun x => decide (x.cause < f.cause)) ++ f :: rs.dropWhile (fun x => decide (x.cause < f.cause))) []

/-- Enter the safe state with the faults of one lc: SAFE_STATUS keeps the lowest cause code, and every other one is
logged, in ascending code order (R368, R397). -/
def enterWith (f : FaultRec) (fs : List FaultRec) (s : State) : State :=
  let m := lowest f fs
  (byCause ((f :: fs).erase m)).foldl (fun s x => noteFault x s) (enterSafe m s)

/-- Hall time passes: `div` 84ths of a module-reference cycle, after the correction of a frame edge in the cycle before (R377,
R378, R380; log entry 12). -/
def tickHall (div : Nat) (s : State) : State :=
  let h := s.hall
  let slewing := min div h.slewLeft
  let num := (h.rate * div + h.slew * slewing).toNat + h.frac
  { s with hall := { h with
      ns := (h.ns + h.step).toNat + num / 84, step := 0, frac := num % 84, slewLeft := h.slewLeft - slewing,
      up := h.up + (h.rate * div).toNat } }

/-- The clock divisor of the gear in force (R180). -/
def gearDivNow (s : State) : Nat :=
  match s.image with
  | some i => i.gearDiv.getD s.weir.gear 12
  | none => 12

/-- End the current lc of the lattice: with a fault it freezes at its end (R206, R398), otherwise the next lc
begins. -/
def endLc (extra : List FaultRec) (s : State) : State :=
  let r := finishLc s
  match extra ++ r.2 with
  | [] => tickHall (gearDivNow s) { r.1 with lc := s.lc + 1 }
  | f :: fs => enterWith f fs r.1

/-- Raise a fatal fault (R396, R397): nothing before STATE 2; logged in the safe state; during a run the lattice
freezes at the end of the lc. -/
def fatal (f : FaultRec) (s : State) : State :=
  match s.dev.st with
  | .coldStart => s
  | .startFailed => s
  | .safe => noteFault f s
  | .running => endLc [f] s
  | _ => enterSafe f s

/-! ## Resume -/

/-- A scoreboard template (R130). -/
def templateOf (x : Nat) : Score :=
  { st := .idle, arm := bits x 127 112, rel := bits x 111 96, amem := bits x 63 62 == 1, first := bits x 61 52,
    rows := bits x 51 41, expect := bits x 40 30, gated := bit x 29, seg := bits x 28 27, landed := 0 }

/-- The scoreboard templates of a cluster, in list order, each read through the correction stage (R106, R108, R130). -/
def readTemplates (c : Nat) (w : Work) : List Score × Work :=
  (List.range (dirWord w.cl 0x1A)).foldl (fun r i =>
    let x := readSmem c (dirWord r.2.cl 0x18 + 16 * i) 16 r.2
    (r.1 ++ [templateOf (leNat x.1)], x.2)) ([], w)

/-- Arm one template in the lowest-numbered idle entry (R97, R130). -/
def armOne (cl : Cluster) (t : Score) : Cluster :=
  match (List.range 64).find? (fun i => (Tab.get Score.reset cl.sb i).st == SbSt.idle) with
  | none => cl
  | some i => { cl with sb := Tab.set Score.reset cl.sb i { t with st := if t.expect = 0 ∨ t.rows = 0 then .done else .armed } }

/-- The templates among some that arm at a weir in the segment it releases into (R97, R130). -/
def armsAt (weir : Nat) (relay : Bool) (ts : List Score) : List Score :=
  ts.filter (fun t => t.arm == weir && (t.seg == 2 || t.seg == b2n relay))

/-- A participant resumes (R97, R118, R119, R144): templates arm, the router starts its list, S0 issues, at the start of
a loop body that its WEIR has ended (R114), or runs the sentinel routine of 2,880 lc first. -/
def resumeCluster (c : Nat) (e : WeirEntry) (first relay : Bool) (now : Nat) (w : Work) : Work :=
  delivered w (readTemplates c w) (fun ts w => w.on (fun cl =>
    let cl := (armsAt e.num relay ts).foldl armOne cl
    let cl := { cl with
      pos := startList (routeEntry cl) first e.relay relay now cl.pos,
      arriveSent := false, landedSent := false,
      s0 := { cl.s0 with
        st := if cl.weirSent then .atWeir else .issuing,
        ready := if cl.weirSent then now + 2880 else now } }
    if relay then { cl with s0 := { cl.s0 with pc := cl.resumeRelay } } else resumeAt cl.resumeMain cl))

/-- A gate starts its list; a bank without entries holds none (R189). -/
def resumeGate (e : WeirEntry) (first relay : Bool) (now : Nat) (g : Gate) : Gate :=
  let act := nextBank first g.pos.bank
  if (if act then g.bank1 else g.bank0).isEmpty then { g with pos := { g.pos with bank := act, nextLc := now } }
  else { g with pos := startList (gateEntry g) first e.relay relay now g.pos }

/-- The weir-table entry at an index (R157). -/
def weirAt (s : State) (i : Nat) : Option WeirEntry := s.image.bind (fun x => x.weirs[i]?)

/-- Number of weirs of the weir table. -/
def weirCount (s : State) : Nat :=
  match s.image with
  | some i => i.weirs.length
  | none => 0

/-- The resume of a release that is not the final weir's (R144, R154): every cluster, router, gate and scoreboard resumes,
and the new gear applies; a template that cannot be read is fatal (R92, R106). -/
def doResume (p : Resume) (s : State) : State :=
  match weirAt s p.ix with
  | none => s
  | some e =>
    let first := p.ix == 0
    let left := s.weir.resumes.filter (fun q => q != p)
    let r := (participants s).foldl (onCluster (fun c w => resumeCluster c e first p.seg s.lc w)) (s, [])
    let t := { r.1 with
      gates := s.gates.map (resumeGate e first p.seg s.lc),
      weir := { s.weir with
        phase := if left ≠ [] ∨ weirCount s ≤ s.weir.await then .released else if s.weir.due.isSome then .held else .beforeDue, gear := p.gear, resumes := left } }
    match r.2 with
    | [] => t
    | bad => endLc bad t

/-- The resume that falls in the current lc (R154). -/
def resumeNow (s : State) : Option Resume := s.weir.resumes.find? (fun p => p.at_ == s.lc)

/-- Carry out the resume of the current lc, when there is one. -/
def resumeLc (s : State) : State :=
  match resumeNow s with
  | some p => doResume p s
  | none => s

end Sys2Proof.Machine
end

