-- ==== Sys2Proof/Machine/Extract.lean ====
section
/-! DEFINITION. Accesses to units under the schedule, and the writes of the extraction lists to their slots, in the order in
which they start (R209, R220, R223 to R225, R300). -/

namespace Sys2Proof.Machine

/-! ## Faults, runs and chains -/

/-- A fault attributed to a ring die (R335). -/
def ringFault (cause d detail : Nat) : FaultRec := { cause := cause, place := atRing, loc := d, detail := detail }

/-- A fault attributed to a stack. -/
def stackFault (cause n detail : Nat) : FaultRec := { cause := cause, place := atStack, loc := n, detail := detail }

/-- A run is in progress (R226). -/
def inRun (s : State) : Bool := s.dev.st == .running

/-- Expected contribution count of an arriving carry (R288, R300). -/
def hopsIn (s : State) : Nat := s.ids.n - s.ids.rank - 1
/-- Contribution count of a carry that leaves (R288, R300). -/
def hopsOut (s : State) : Nat := s.ids.n - s.ids.rank

/-! ## Units under the schedule's access (R220, R224, R256) -/

/-- Why a unit may not be accessed by what the manifest drives, or by the host's own work during a run; none when it
may (R220, R224, R256). -/
def unitBar (hostDriven : Bool) (u : Nat) (s : State) : Option Nat :=
  if (mapAt s u).res = false then some cTierList
  else if inRun s ∧ hostDriven = true ∧ hostAcc s u = false then some cTierList
  else if inRun s ∧ hostDriven = false ∧ hostAcc s u = true then some cTierOwnership
  else none

/-! ## Extraction writes -/

/-- Add two payloads lane by lane under AFMT 0: the sum, and the NaN and overflow counts (R141, R223). -/
def addPayload (a b : Bytes) : Bytes × Nat × Nat :=
  ((chunksB 32 512 a).zip (chunksB 32 512 b)).foldl
    (fun acc xy =>
      let r := adder 0 (flitOf xy.1) (flitOf xy.2)
      (acc.1 ++ flitBytes r.1, acc.2.1 + r.2.1, acc.2.2 + r.2.2)) ([], 0, 0)

/-- Add two payloads as 64-bit integers modulo 2^64 (R223). -/
def addPayload64 (a b : Bytes) : Bytes :=
  (List.range 2048).flatMap (fun k => toLe 8 (fieldB a (8 * k) 8 + fieldB b (8 * k) 8))

/-- The cluster in whose counters ADD_F32 counts: field-local (0, 9) of the stack field (R223). -/
def addCluster (stack : Nat) : Nat := clusterIn (stackFields.getD stack 94) 0 9

/-- The tile that STORE writes, with the STEP of the run as its version; the bytes of the last trailer row beyond TRB are
dropped (R44, R223). -/
def storedTile (step : Nat) (e : StageEnt) (i : Nat) (data : Bytes) : Bytes :=
  buildTile { tid := e.tid.toNat, version := step, row := e.trow, col := e.tcol + i, fmt := e.fmt, shape := e.shape }
    (payloadOf e.fmt data) (if e.trailer then sliceB data payloadSize e.trb else [])

/-- A stored tile with a new payload; the other header fields and the trailer stay (R223). -/
def withPayload (old payload : Bytes) : Bytes := buildTile (hdrOf old) payload (tTrailer old)

/-- The carry checks of an extraction STORE of a carry tile (R300). -/
def storeCheck (s : State) (t : Bytes) : Nat := if tShape t % 128 = 3 then carryCheck false false (hopsOut s) t else 0

/-- The tile leaves the extraction buffer; the list is complete with its last one (R223). -/
def stageWritten (k : Nat) (e : StageEnt) (s : State) : State :=
  let x := stageAt s k
  setStage k { x with bytes := x.bytes.drop (stageBytes e), done := x.done + 1,
                      st := if x.done + 1 = x.total then .complete else x.st } s

/-- Write a completed extraction tile in a mode, once its unit may be written (R209, R220, R223, R224, R300). -/
def writeExtracted (step stack k : Nat) (x : StageList) (e : StageEnt) (i : Nat) (s : State) : State :=
  let u := e.unit + i
  let data := x.bytes.take (stageBytes e)
  match unitBar false u s with
  | some cause => fatal (stackFault cause stack u) s
  | none =>
    if e.mode = 0 then
      let t := storedTile step e i data
      let bad := storeCheck s t
      if bad ≠ 0 then fatal (stackFault bad stack u) s
      else stageWritten k e (writeUnit u t s)
    else
      let r := readUnit u s
      if r.2.1 then fatal (stackFault cEccUncorr (mapAt s u).stack u) r.2.2
      else if e.mode = 1 then
        let p := addPayload (tPayload r.1) data
        let s := updCluster (addCluster stack)
          (count (fun c => { c with meshNan := satAdd c.meshNan p.2.1, meshInf := satAdd c.meshInf p.2.2 })) r.2.2
        stageWritten k e (writeUnit u (withPayload r.1 p.1) s)
      else stageWritten k e (writeUnit u (withPayload r.1 (addPayload64 (tPayload r.1) data)) r.2.2)

/-- The STEP under which the oldest write of an extraction list has started. -/
def writeStep (s : State) (k : Nat) : Nat :=
  ((s.tier.writes.find? (fun w => w.list == k)).map (fun w => w.step)).getD s.runBlk.step

/-- Write the next completed tile of an extraction list; its write started with its completion, and ends even in the safe
state (R223, R224, R399). -/
def writeNext (s : State) (k : Nat) : State :=
  let x := stageAt s k
  let step := writeStep s k
  let s := { s with tier := { s.tier with writes := removeFirst (fun w => w.list == k) s.tier.writes } }
  match waitingTiles x with
  | (e, i) :: _ => writeExtracted step (k / 131072) k x e i s
  | [] => s

/-- Apply every extraction write that has started: whatever reads or writes a slot after it finds it done (R224). -/
def applyWrites (s : State) : State := s.tier.writes.foldl (fun s w => writeNext s w.list) s

/-- An access that starts now takes effect after the extraction writes that have started (R224). -/
def inOrder (f : State → State) (s : State) : State := f (applyWrites s)

end Sys2Proof.Machine
end

