-- ==== Sys2Proof/Machine/Complete.lean ====
section
/-! DEFINITION. Descriptors of the transfer queues and their completion (R241, R246, R248, R251, R258 to R262, R297, R407),
and a port that goes DOWN (R241). -/

namespace Sys2Proof.Machine

/-! ## Faults, weirs and chains -/

/-- A fault attributed to a port (R335). -/
def portFault (cause p detail : Nat) : FaultRec := { cause := cause, place := atPort, loc := p, detail := detail }

/-- Position of a weir number in the weir table. -/
def weirIndex (s : State) (w : Nat) : Option Nat := s.image.bind (fun x => x.weirs.findIdx? (fun e => e.num == w))

/-- Whether a weir has released in the run in progress or the last one (R260). -/
def weirReleased (s : State) (w : Nat) : Bool :=
  match weirIndex s w with
  | some i => decide (i < s.weir.await)
  | none => false

/-! ## Descriptors (R258) -/

/-- A descriptor from its 64 bytes. -/
def descOf (host : Bool) (b : Bytes) : Desc :=
  { kind := fieldB b 0 1, srcx := bit (fieldB b 1 1) 0, weirStart := bit (fieldB b 1 1) 1, vl := fieldB b 2 1 % 8,
    tag := BitVec.ofNat 32 (fieldB b 4 4), count := fieldB b 8 4, src := fieldB b 12 4, dsl := fieldB b 16 2,
    dfirst := fieldB b 18 2, dunit := fieldB b 20 4, home := fieldB b 24 8, startWeir := fieldB b 32 2,
    tid := BitVec.ofNat 32 (fieldB b 40 4), fmt := fieldB b 44 1, shape := fieldB b 45 1, trb := fieldB b 46 2,
    trow := fieldB b 48 3, tcol := fieldB b 51 3, host := host, ok := true, no := 0 }

/-- Whether the bytes of a descriptor keep R258 and R259: kinds, ranges, no reserved code, reserved and unused fields zero,
the lane rule of R237. -/
def descBytesOk (b : Bytes) : Bool :=
  let d := descOf false b
  let sends := d.kind == 1 || d.kind == 2
  decide (1 ≤ d.kind) && decide (d.kind ≤ 7) && decide (fieldB b 1 1 < 4) && decide (fieldB b 2 1 < 8) && zeroB b 3 1 &&
    zeroB b 34 6 && zeroB b 54 10 && decide (d.count < 65536) && (d.weirStart || d.startWeir == 0) &&
    (!d.srcx || sends) && (d.srcx || (zeroB b 40 14)) && decide (d.dsl < 32768) &&
    (!d.srcx || (d.trb % 8 == 0 && decide (d.trb ≤ 1024) && decide (d.src < 16) && pairAllowed d.fmt d.shape)) &&
    (d.srcx || decide (d.src < 2 ^ 29)) && decide (d.dunit < 2 ^ 29) && decide (d.home < 2 ^ 48) &&
    (d.kind == 4 || d.dunit == 0) && (d.kind == 4 || d.kind == 5 || d.kind == 6 || d.home == 0) &&
    (sends || d.kind == 3 || d.kind == 6 || (d.dsl == 0 && d.dfirst == 0)) &&
    ((d.kind != 4 && d.kind != 6) || d.src == 0) && (d.kind != 3 || decide (d.src < 32768)) &&
    ((d.kind != 6 && d.kind != 7) || (d.count ≤ 1 && d.vl == 0)) && (d.kind == 4) == (d.vl == 6)

/-- Status codes of R262. -/
def stOk : Nat := 0
def stTimeout : Nat := 1
def stLinkDown : Nat := 2
def stPeerCeased : Nat := 3
def stNotResident : Nat := 4
def stOwnership : Nat := 5
def stEpoch : Nat := 6
def stBadDescriptor : Nat := 7
def stRemoteCrc : Nat := 8

/-! ## Ports of a descriptor (R251, R260) -/

/-- Bundle of a queue: that of its port. -/
def queueBundle (s : State) (q : Nat) : Nat := (portAt s (q / 1024)).bundle

/-- Ports of a queue's bundle; a port of no bundle stands alone. -/
def queueSize (s : State) (q : Nat) : Nat :=
  if (portAt s (q / 1024)).role = 0 then 1 else max 1 (bundleSize s (queueBundle s q))

/-- The port for frame i of a descriptor of a queue (R251). -/
def framePort (s : State) (q i : Nat) : Nat :=
  if (portAt s (q / 1024)).role = 0 then q / 1024 else (bundlePort s (queueBundle s q) i).getD (q / 1024)

/-- Whether a queue sends on an OUTLET bundle. -/
def onOutlet (s : State) (q : Nat) : Bool := (portAt s (q / 1024)).role == rOutlet

/-- Whether a CARRY descriptor sends SC lane tiles, which travel packed (R297). -/
def packsLanes (s : State) (d : Desc) : Bool :=
  d.kind == 2 && (if d.srcx then d.fmt == 9 else tFmt (readUnit d.src s).1 == 9)

/-- Lane tiles of a wire tile that leaves (R297). -/
def wireLanes (s : State) : Nat := lanesPerWire (scWidth (hopsOut s))

/-- Frames a descriptor sends or reads, for its port assignment: a packed CARRY sends wire tiles, an OUTLET COPY also its
seal (R251, R282, R297). -/
def frameCount (s : State) (q : Nat) (d : Desc) : Nat :=
  if d.kind = 6 ∨ d.kind = 7 then 1
  else if packsLanes s d then (d.count + wireLanes s - 1) / max 1 (wireLanes s)
  else if d.kind = 1 ∧ onOutlet s q = true ∧ d.count ≠ 0 then d.count + 1 else d.count

/-- The ports to which a descriptor's tiles are assigned. -/
def portsOf (s : State) (q : Nat) (d : Desc) : List Nat :=
  ((List.range (min (frameCount s q d) (queueSize s q))).map (framePort s q)).eraseDups

/-! ## Completion (R261, R262) -/

/-- Number of a transfer queue's descriptor as the owner of its frames. -/
def ownerOf (q : Nat) (tag : W32) : Nat := 1 + q * 2 ^ 32 + tag.toNat

/-- One completion-ring entry (R261). -/
def ringEntry (q : Queue) (d : Desc) (status done : Nat) : Bytes :=
  toLe 4 d.tag.toNat ++ toLe 2 status ++ toLe 1 d.kind ++
    toLe 1 ((if q.completions / 1024 % 2 = 0 then 1 else 0) + 2 * b2n d.host) ++ toLe 4 done ++ zeros 4

/-- Whether the completion ring of a queue may not be written: during a run the manifest drives no access to a unit whose
account has HOSTACC (R220). -/
def ringBarred (q : Queue) (s : State) : Bool := inRun s && q.manifest && hostAcc s q.cring

/-- Write the next completion entry of a queue into the ring's unit; none is written when the unit is not resident or barred,
and the audit then fails (R220, R261, R407; log entry 28). -/
def writeEntry (k : Nat) (e : Bytes) (s : State) : State :=
  let q := queueAt s k
  let m := mapAt s q.cring
  if m.res = false ∨ ringBarred q s = true then s
  else
    updQueue k (fun q => { q with entries := q.entries + 1 })
      (updMap q.cring (fun m => { m with dirty := true })
        (writeStack (slotKey m.stack m.slot + 16 * (q.completions % 1024)) e s))

/-- The counts of R407 agree in a queue: started with running and completed, completed with the entries written. -/
def tqCountsOk (q : Queue) : Bool :=
  q.started == q.running.length + q.completions + q.cleared && q.completions == q.entries

/-- The audit of a queue at a completion (R407). -/
def auditQueue (k : Nat) (s : State) : State :=
  if tqCountsOk (queueAt s k) then s else fatal (ringFault cTqError (k / 2048) 0) s

/-- A descriptor completes, exactly once: its entry, the count, its tag, the audit of R407; a bad status of a manifest
descriptor is fatal, and so is a completion ring that its queue may not write (R220, R261, R262). -/
def completeDesc (k : Nat) (no status done : Nat) (d : Desc) (s : State) : State :=
  let q := queueAt s k
  let barred := ringBarred q s
  let s := writeEntry k (ringEntry q d status done) s
  let s := updQueue k (fun q =>
    { q with completions := q.completions + 1, running := q.running.filter (fun r => r.no != no),
             recent := ((d.tag, no) :: q.recent).take 4096 }) s
  let s := { s with ports := Tab.mapVals Port.reset (fun _ p => withdraw (ownerOf k d.tag) p) s.ports }
  if barred then fatal (ringFault cTierOwnership (k / 2048) q.cring) s
  else if d.host ∨ status = stOk ∨ status = stEpoch then auditQueue k s
  else fatal (ringFault cTqError (k / 2048) d.tag.toNat) s

/-- Tiles of a descriptor that are completed: written or passed for FETCH and PASS, else sent and acknowledged (R259,
R261). -/
def tilesDone (s : State) (k : Nat) (r : Running) : Nat :=
  if r.desc.kind = 3 ∨ r.desc.kind = 4 then r.done
  else min r.sent r.desc.count - (s.ports.map (fun e => owedTiles (ownerOf k r.desc.tag) e.2)).foldl (· + ·) 0

/-- A running descriptor completes with a status. -/
def completeRun (k : Nat) (r : Running) (status : Nat) (s : State) : State :=
  completeDesc k r.no status (tilesDone s k r) r.desc s

/-- The descriptors of a queue that are pending: posted, or prewritten with their weir released, and not started (R259,
R260). -/
def pendingOf (s : State) (q : Queue) : List Desc :=
  if q.manifest then (q.descs.drop q.next).takeWhile (fun d => weirReleased s d.startWeir) else q.descs

/-- A pending descriptor completes without having started; it counts as started now (R407). -/
def completePending (k status : Nat) (d : Desc) (s : State) : State :=
  let no := if d.host then d.no else (queueAt s k).started
  completeDesc k no status 0 d
    (updQueue k (fun q =>
      { q with started := q.started + 1, next := if q.manifest then q.next + 1 else q.next,
               descs := if q.manifest then q.descs else removeFirst (fun x => x.no == d.no) q.descs }) s)

/-- Complete every started or pending descriptor of a queue that a test picks (R241, R246, R248). -/
def completeAll (k status : Nat) (pick : Desc → Bool) (s : State) : State :=
  let s := ((queueAt s k).running.filter (fun r => pick r.desc)).foldl (fun s r => completeRun k r status s) s
  ((pendingOf s (queueAt s k)).filter pick).foldl (fun s d => completePending k status d s) s

/-- Complete every descriptor that has a tile assigned to a port, after the slot writes that have started (R224, R241,
R246); a fault ends them (R399). -/
def failPort (p status : Nat) (s : State) : State :=
  (s.queues.map Prod.fst).foldl
    (fun s k => if isSafe s then s else completeAll k status (fun d => (portsOf s k d).contains p) s) (applyWrites s)

/-- Complete every descriptor with EPOCH, after the slot writes that have started (R224, R248, R408). -/
def endDescs (s : State) : State :=
  (s.queues.map Prod.fst).foldl (fun s k => completeAll k stEpoch (fun _ => true) s) (applyWrites s)

/-! ## DOWN (R241) -/

/-- Log a port event; a retrain counts as retried (R367; log entry 16). -/
def logPort (code p : Nat) (s : State) : State :=
  logEvent code (if code = 0x0601 then 1 else 0) atPort p (toLe 1 p ++ toLe 8 (portAt s p).partnerId.toNat) s

/-- A lane whose incomplete frame is discarded (R241, R401). -/
def cutLane (l : Lane) : Lane := { l with stream := [], head := none, skip := false }

/-- The lanes of a port whose incomplete frames are discarded. -/
def cutLanes (q : Port) : Port := { q with lanes := Tab.mapVals Lane.reset (fun _ l => cutLane l) q.lanes }

/-- Whether a parked frame's end never comes when the frames that arrive on a port are cut. -/
def Parked.cutOn (p : Nat) (e : Parked) : Bool := e.port == p && !e.isMarker && !whole e.bytes

/-- Whether the end of a frame that waits for its judgement never comes when the frames that arrive on a port are cut. -/
def Stalled.cutOn (p : Nat) (f : Stalled) : Bool := f.port == p && decide (f.vl < 8) && !whole f.bytes

/-- Bytes of the landing buffer that a parked frame reserves: its header and its full LENGTH (R256). -/
def Parked.size (e : Parked) : Nat := if e.isMarker then e.bytes.length else reserved e.bytes

/-- A ring die without the frames of a port whose end never comes: their reservations and parking places are free (R256). -/
def cutRing (p : Nat) (r : Ring) : Ring :=
  { r with
    bufUsed := r.bufUsed - ((r.parked.filter (Parked.cutOn p)).map Parked.size).foldl (· + ·) 0,
    parked := r.parked.filter (fun e => !e.cutOn p), stalled := r.stalled.filter (fun f => !f.cutOn p) }

/-- The incomplete frames that arrive on a port are discarded, in its lanes and where their beginnings are parked or wait
(R241, R256, R401). -/
def cutFrom (p : Nat) (s : State) : State :=
  let cut := s.rings.flatMap (fun e => (e.2.parked.filter (Parked.cutOn p)).map (fun x => sluiceKey e.1 x.sluice))
  let s := cut.foldl (fun s k => updSluice k (fun x => { x with parked := x.parked - 1 }) s) s
  updPort p cutLanes { s with rings := Tab.mapVals Ring.reset (fun _ r => cutRing p r) s.rings }

/-- What a port has posted and not sent goes. -/
def dropPosted (q : Port) : Port := { q with txq := [], ctlq := [] }

/-- The port goes DOWN: it sends nothing further, and its descriptors complete with LINK_DOWN (R241). -/
def goDown (p : Nat) (s : State) : State :=
  let s := logPort 0x0600 p (cutFrom p (updPort p (fun q => { q with st := .down }) s))
  updPort p dropPosted (if isSafe s then s else failPort p stLinkDown s)

end Sys2Proof.Machine
end

