-- ==== Sys2Proof/Machine/Send.lean ====
section
/-! DEFINITION. Posting frames on the ports, and what every received frame passes before it is handled (R236 to R249,
R256, R399). -/

namespace Sys2Proof.Machine

/-! ## Sending -/

/-- Send what a port can send; one out of seal counters goes DOWN (R240, R242, R249). -/
def pump (p : Nat) (s : State) : State :=
  let s := updPort p (pumpPort (isSafe s)) s
  let q := portAt s p
  if q.st = .up ∧ isSafe s = false ∧ (List.range 8).any (laneSpent q) = true then goDown p s else s

/-- Whether a frame posted on a port will be sent. -/
def sends (s : State) (p : Nat) : Bool := takesBulk (portAt s p)

/-- Post a bulk frame on a port. -/
def postFrame (p : Nat) (f : TxFrame) (s : State) : State :=
  if sends s p then pump p (updPort p (fun q => { q with txq := q.txq ++ [f] }) s) else s

/-- Post a plain bulk frame on a port, for one tile of a descriptor or for none. -/
def postBulk (p vl : Nat) (frame : Bytes) (owner : Nat) (s : State) : State :=
  postFrame p { vl := vl, bytes := frame, fresh := true, owner := owner, tiles := 1, carry := false } s

/-- Post a control frame on a port; it waits while the port trains (R238, R246). -/
def postControl (p : Nat) (ctype : Nat) (payload : Bytes) (owner : Nat) (s : State) : State :=
  let q := portAt s p
  if q.st = .off ∨ q.st = .down then s
  else pump p (updPort p (fun q => { q with ctlq := q.ctlq ++ [(owner, controlFrame q ctype payload)] }) s)

/-! ## Receiving -/

/-- Count on a port. -/
def countPort (p : Nat) (f : PortCnt → PortCnt) : State → State := updPort p (fun q => { q with cnt := f q.cnt })

/-- A frame leaves a port's inbox. -/
def takeInbox (p vl : Nat) (f : Bytes) : State → State :=
  updPort p (fun q => { q with inbox := removeFirst (fun x => x == { vl := vl, bytes := f }) q.inbox })

/-- Whether a stalled judgement keeps a lane's flits in the receive buffer (R256). -/
def laneHeld (s : State) (p v : Nat) : Bool := s.rings.any (fun e => e.2.stalled.any (fun f => f.port == p && f.vl == v))

/-- Bytes of a lane that wait in the receive buffer: of the frame being assembled and of whole frames. -/
def laneBytes (q : Port) (v : Nat) : Nat :=
  (laneAt q v).stream.length + ((q.inbox.filter (fun f => f.vl == v)).map (fun f => f.bytes.length)).foldl (· + ·) 0

/-- The flits of a lane that nothing needs any more are freed, and the new limit goes out (R242, R256). -/
def freeLane (p v : Nat) (s : State) : State :=
  let q := portAt s p
  let l := laneAt q v
  let keep := min l.occ ((laneBytes q v + 239) / 240)
  if 8 ≤ v ∨ laneHeld s p v = true ∨ keep = l.occ then s
  else
    let freed := (l.freed + (l.occ - keep)) % 2 ^ 32
    updPort p (fun q =>
      let q := setLane v { l with occ := keep, freed := freed } q
      if streams q then signal 0 0 0 (some (v, 4096 + freed)) q else q) s

/-- What a bulk frame of a type that has left the inbox meets before it is handled in plain form: the checks above the
link layer; in the safe state it is discarded (R245, R247, R249, R399). -/
def passBulk (p vl ftype : Nat) (f : Bytes) (h : Bytes → State → State) (s : State) : State :=
  let q := portAt s p
  if q.st = .off ∨ q.st = .down ∨ fieldB f 0 1 ≠ ftype then s
  else if isSafe s then countPort p (fun k => { k with filterDrop := satAdd k.filterDrop 1 }) s
  else if frameError q.role vl f then countPort p (fun k => { k with frameBad := satAdd k.frameBad 1 }) s
  else if passesFilter q f = false then countPort p (fun k => { k with filterDrop := satAdd k.filterDrop 1 }) s
  else
    match openSeal q vl f with
    | none => countPort p (fun k => { k with sealFail := satAdd k.sealFail 1 }) s
    | some g =>
      if bodyError g then countPort p (fun k => { k with frameBad := satAdd k.frameBad 1 }) s
      else
        h g (if fieldB f 1 1 = 0 then s
             else updPort p (fun q => setLane vl { laneAt q vl with sealRx := some (fieldB f 24 6) } q) s)

/-- A bulk frame of a type is handled, and the flits it held are freed (R242, R245, R256). -/
def receiveBulk (p vl ftype : Nat) (f : Bytes) (h : Bytes → State → State) (s : State) : State :=
  freeLane p vl (passBulk p vl ftype f h (takeInbox p vl f s))

/-- A control frame of a type is handled; a filtered one must carry the port's tag and epoch; in the safe state it is
discarded (R246, R247, R399). Its reserved bytes are not looked at (log entry 79). -/
def receiveControl (p ctype : Nat) (f : Bytes) (h : State → State) (s : State) : State :=
  let s := takeInbox p 8 f s
  let q := portAt s p
  if q.st = .off ∨ q.st = .down ∨ fieldB f 0 1 ≠ ctype ∨ isSafe s = true then s
  else if 3 ≤ ctype ∧ passesFilter q f = false then countPort p (fun k => { k with filterDrop := satAdd k.filterDrop 1 }) s
  else h s

end Sys2Proof.Machine
end

