-- ==== Sys2Proof/Machine/Ring.lean ====
section
/-! DEFINITION. Ring dies: sluices, parking and the landing buffer, shards and their requests, pass-along, TEE copies
and carry sluices (R252 to R257, R268 to R279, R299 to R301, R414). -/

namespace Sys2Proof.Machine

/-- Change the counters of a ring die. -/
def bump (d : Nat) (f : RingCnt → RingCnt) : State → State := updRing d (fun r => { r with cnt := f r.cnt })

/-- The ring die that owns a sluice index for a frame that reaches die `d`: die `d` itself, or else the lowest-numbered
die that has the index (R252, R254; log entry 25). -/
def sluiceOwner (s : State) (d i : Nat) : Nat :=
  if (sluiceAt s (sluiceKey d i)).present then d
  else ((List.range 12).find? (fun e => (sluiceAt s (sluiceKey e i)).present)).getD d

/-- Whether a sluice is a shard sluice (R271). -/
def isShard (x : Sluice) : Bool :=
  x.present && !x.marker && x.units && (x.vsrc == 1 || x.vsrc == 2) && x.tid.getLsbD 31 && !x.host

/-! ## Sending tiles -/

/-- A TILE frame (R245). -/
def tileFrame (q : Port) (sluice i : Nat) (tile : Bytes) : Bytes := bulkFrame q 1 sluice i tile

/-- Post a TILE frame on lane 0 (log entry 26). -/
def postTile (p sluice i : Nat) (tile : Bytes) (owner : Nat) (s : State) : State :=
  postBulk p 0 (tileFrame (portAt s p) sluice i tile) owner s

/-- The bundle to which shard requests go (R275). -/
def requestPort (s : State) : Option Nat :=
  match roleBundle s rHeadgate with
  | some b => memberPort s b 0
  | none => (roleBundle s rChainIn).bind (fun b => memberPort s b 0)

/-- Count frames that a ring die sends on a port; one that the port does not take is not sent (R286). -/
def bumpSent (d p : Nat) (f : RingCnt → RingCnt) (s : State) : State := if sends s p then bump d f s else s

/-- Post a SHARD_REQ (R274). -/
def postShardReq (p sluice version first n : Nat) (tid : W32) (rerq : Bool) (s : State) : State :=
  postBulk p 6 (bulkFrame (portAt s p) 5 sluice version (toLe 4 tid.toNat ++ toLe 4 first ++ toLe 4 n ++ toLe 4 (b2n rerq))) 0 s

/-- Serve tile i of a shard to the port that asked for it (R278); an uncorrectable slot is fatal (R209). -/
def serveTile (d idx i p : Nat) (s : State) : State :=
  let u := (sluiceAt s (sluiceKey d idx)).firstUnit + i
  if (mapAt s u).res then
    let r := readUnit u s
    if r.2.1 then fatal (stackFault cEccUncorr (mapAt s u).stack u) r.2.2
    else postTile p idx i r.1 0 (bumpSent d p (fun c => { c with shardServed := satAdd c.shardServed 1 }) r.2.2)
  else s

/-- A tile that has landed is sent to the requests that wait for it (R278). -/
def serveWaiting (d idx i : Nat) (s : State) : State :=
  let mine := (ringAt s d).reqs.filter (fun r => r.served && r.sluice == idx && r.left.contains i)
  let s := mine.foldl (fun s r => serveTile d idx i r.port s) s
  let drop (q : ShardReq) : ShardReq := if q.served && q.sluice == idx then { q with left := q.left.erase i } else q
  updRing d (fun r => { r with reqs := (r.reqs.map drop).filter (fun q => !(q.served && q.left.isEmpty)) }) s

/-- What a ring die makes of a request when it examines it (R278). -/
inductive ReqFate where
  | stale | held | serve
deriving DecidableEq, Repr

/-- Examine a request against its sluice (R278). -/
def reqFate (x : Sluice) (q : ShardReq) : ReqFate :=
  if x.present = false ∨ x.marker = true ∨ x.units = false ∨ x.tid ≠ q.tid then .stale
  else if x.st = .closed ∨ x.version ≠ q.version then .held
  else if x.count < q.first + q.ntiles then .stale
  else .serve

/-- Serve a request: the tiles that have landed now, the others as they land (R278). -/
def startServing (d : Nat) (q : ShardReq) (s : State) : State :=
  let x := sluiceAt s (sluiceKey d q.sluice)
  let all := (List.range q.ntiles).map (· + q.first)
  let s := (all.filter (fun i => x.bits.contains i)).foldl (fun s i => serveTile d q.sluice i q.port s) s
  let left := all.filter (fun i => !x.bits.contains i)
  if left.isEmpty then s else updRing d (fun r => { r with reqs := r.reqs ++ [{ q with served := true, left := left }] }) s

/-- One request discarded. -/
def staleReq (d n : Nat) : State → State := bump d (fun c => { c with shardStale := satAdd c.shardStale n })

/-- Requests that a ring die holds; those it is serving are held no more (R278). -/
def heldReqs (s : State) (d : Nat) : List ShardReq := (ringAt s d).reqs.filter (fun q => !q.served)

/-- Handle a request that arrives, or a held one at an opening; a ring die holds at most 256 (R278). -/
def examineReq (d : Nat) (s : State) (q : ShardReq) : State :=
  match reqFate (sluiceAt s (sluiceKey d q.sluice)) q with
  | .stale => staleReq d 1 s
  | .held =>
    if 256 ≤ (heldReqs s d).length then staleReq d 1 s
    else updRing d (fun r => { r with reqs := r.reqs ++ [q] }) s
  | .serve => startServing d q s

/-- Examine the requests held for a sluice again, at its opening (R278). -/
def reexamine (d idx : Nat) (s : State) : State :=
  ((heldReqs s d).filter (fun q => q.sluice == idx)).foldl (examineReq d)
    (updRing d (fun r => { r with reqs := r.reqs.filter (fun q => q.served || q.sluice != idx) }) s)

/-! ## Pass-along and TEE (R276, R277, R414) -/

/-- Owner number of the TEE copies of a ring die. -/
def teeOwner (d : Nat) : Nat := 2 ^ 60 + d

/-- Whether a running descriptor of a queue is a PASS of a sluice (R259). -/
def passOf (s : State) (d idx : Nat) (k : Nat) (r : Running) : Bool :=
  r.desc.kind == 3 && sluiceOwner s (k / 2048) r.desc.src == d && r.desc.src == idx

/-- Whether a running descriptor still waits for a tile (R277). -/
def lacksTile (i : Nat) (r : Running) : Bool := decide (i < r.desc.count) && !r.written.contains i

/-- The running PASS descriptors among some that still wait for a tile: queue and descriptor (R259, R277). -/
def passesBy (s : State) (pick : Nat → Running → Bool) (i : Nat) : List (Nat × Desc) :=
  s.queues.flatMap (fun e => (e.2.running.filter (fun r => pick e.1 r && lacksTile i r)).map (fun r => (e.1, r.desc)))

/-- The running PASS descriptors of a sluice that still wait for a tile (R259, R277). -/
def passesFor (s : State) (d idx i : Nat) : List (Nat × Desc) := passesBy s (passOf s d idx) i

/-- Forward a copy of a tile for a PASS descriptor on member (tile index mod M) (R251, R277). -/
def passOne (i : Nat) (tile : Bytes) (s : State) (x : Nat × Desc) : State :=
  match bundlePort s (portAt s (x.1 / 1024)).bundle i with
  | none => s
  | some p => postBulk p x.2.vl (tileFrame (portAt s p) x.2.dsl (x.2.dfirst + i) tile) (ownerOf x.1 x.2.tag) s

/-- A tile counts for the running descriptors among some that wait for it. -/
def passMarks (pick : Nat → Running → Bool) (i : Nat) (s : State) : State :=
  { s with queues := Tab.mapVals Queue.reset (fun k q =>
      { q with running := q.running.map (fun r =>
          if pick k r && lacksTile i r then { r with done := r.done + 1, written := insertNat i r.written } else r) }) s.queues }

/-- A tile counts for its PASS descriptors when the copy is accepted here (R277). -/
def passDone (d idx i : Nat) (s : State) : State := passMarks (passOf s d idx) i s

/-- Copy an accepted tile to the TEE bundle; the ring die queues at most 64 (R256, R414; member by tile index, log entry
26). -/
def teeCopy (d idx i : Nat) (tile : Bytes) (s : State) : State :=
  match roleBundle s rTee with
  | none => s
  | some b =>
    let queued := (s.ports.map (fun e => (e.2.txq.filter (fun f => f.owner == teeOwner d)).length)).foldl (· + ·) 0
    if 64 ≤ queued then bump d (fun c => { c with teeDrop := satAdd c.teeDrop 1 }) s
    else
      match bundlePort s b i with
      | none => s
      | some p => postTile p idx i tile (teeOwner d) s

/-! ## Accepting tiles (R254 check 7, R256, R299, R300) -/

/-- Rows in which an accepted tile lands in cluster memory: 32 payload rows, then the trailer rows (R102, R257). -/
def landingRows (trailer : Bool) (tile : Bytes) : List Bytes :=
  chunksB 512 32 (tPayload tile) ++
    (if trailer then (chunksB 512 3 (tTrailer tile)).map (fun r => padB r 512) else [])

/-- A sluice after `n` accepted tiles or markers from index `i` on (R254). -/
def acceptBits (i n : Nat) (x : Sluice) : Sluice :=
  let landed := x.landed + n
  { x with bits := (List.range n).foldl (fun b k => insertNat (i + k) b) x.bits, landed := landed,
           st := if x.st = .opened ∧ landed = x.count then .complete else x.st }

/-- A shard sluice that has just completed waits for its check (R272). -/
def queueCheck (d idx : Nat) (s : State) : State :=
  let x := sluiceAt s (sluiceKey d idx)
  if isShard x && x.st == .complete && x.check == 0 then
    updSluice (sluiceKey d idx) (fun x => { x with check := 1 }) (updRing d (fun r => { r with checks := r.checks ++ [idx] }) s)
  else s

/-- Put an accepted tile where its sluice sends it: into its unit, or in line for its landing slots (R256). -/
def placeTile (d idx i size : Nat) (tile : Bytes) (s : State) : State :=
  let x := sluiceAt s (sluiceKey d idx)
  if x.units then
    match unitBar x.host (x.firstUnit + i) s with
    | some cause => fatal (ringFault cause d (x.firstUnit + i)) s
    | none => writeUnit (x.firstUnit + i) tile s
  else
    updRing d (fun r =>
      { r with bufUsed := r.bufUsed + size,
               waiting := r.waiting ++ [{ sluice := idx, index := i, next := 0, rows := landingRows x.trailer tile, size := size }] }) s

/-- Lane tiles that a frame at a sluice holds, from its tile header: a carry of packed SC lanes records 8 + 32 G' trailer
bytes (R297, R299). -/
def lanesOfTile (carry : Bool) (t : Bytes) : Nat := if carry ∧ tFmt t = 9 then max 1 ((tTrb t - 8) / 32) else 1

/-- A tile is accepted; `size` is what its frame reserved (R254, R256, R272, R277, R278, R299, R301). -/
def acceptTile (d idx i n p size : Nat) (tile : Bytes) (s : State) : State :=
  let k := sluiceKey d idx
  let x := sluiceAt s k
  let parts := if x.carry then unpackWire tile else [tile]
  let s := updSluice k (acceptBits i n) s
  let s := if x.carry then countPort p (fun c => { c with carryRx := satAdd c.carryRx n }) s else s
  let s := (parts.zipIdx).foldl (fun s e => placeTile d idx (i + e.2) (if e.2 = 0 then size else 0) e.1 s) s
  let s := (List.range n).foldl (fun s j => serveWaiting d idx (i + j) (passDone d idx (i + j) s)) s
  let s := if x.tee then teeCopy d idx i tile s else s
  let s := queueCheck d idx s
  if isShard x && i + 1 == x.count && (sealStatus tile == 1 || sealStatus tile == 2) then
    fatal (ringFault cShardRefused d idx) (updSluice k (fun x => { x with check := 3 }) s)
  else s

/-- A tile fails check 7 (R254, R279, R299, R319). -/
def refuseTile (d idx i : Nat) (s : State) : State :=
  let k := sluiceKey d idx
  let x := sluiceAt s k
  let s := bump d (fun c => { c with sluCrc := satAdd c.sluCrc 1 }) s
  if x.carry then fatal (ringFault cCarryCrc d i) s
  else if isShard x then
    let n := Tab.get 0 x.tries i
    if 3 ≤ n then fatal (ringFault cShardCrc d i) s
    else
      match requestPort s with
      | none => fatal (ringFault cShardCrc d i) s
      | some p =>
        postShardReq p idx x.version i 1 x.tid true
          (bumpSent d p (fun c => { c with shardRerq := satAdd c.shardRerq 1 })
            (updSluice k (fun x =>
              { x with tries := Tab.set 0 x.tries i (n + 1), rerq := if sends s p then x.rerq + 1 else x.rerq }) s))
  else s

/-! ## Judging (R254 to R256) -/

/-- Bytes of the landing buffer of a ring die (R256). -/
def landingSize : Nat := 33554432

/-- Bytes of a frame that tell a judgement: its header and the tile header. -/
def headSize : Nat := 96

/-- The frames whose header has been judged and whose body still arrives, with what became of them. -/
def judgedHeads (s : State) : List (Bytes × HeadFate) := s.ports.flatMap (fun e => e.2.lanes.filterMap (fun l => l.2.head))

/-- The frames in progress at a ring die: the sluice of each, its first tile index and its lane tiles. A frame is in progress
from its judgement to its end (R254). -/
def inProgress (s : State) (d : Nat) : List (Nat × Nat × Nat) :=
  (judgedHeads s).filterMap (fun x =>
    match x.2 with
    | .inProgress die _ _ =>
      if die = d then
        some (fIndex x.1, fTile x.1, lanesOfTile (sluiceAt s (sluiceKey d (fIndex x.1))).carry (fBody x.1))
      else none
    | _ => none)

/-- Bytes of a landing buffer that a judged frame still holds. -/
def HeadFate.holds (d : Nat) : HeadFate → Nat
  | .inProgress die res _ => if die = d then res else 0
  | .detached die res _ _ _ => if die = d then res else 0
  | _ => 0

/-- Bytes of the landing buffer in use or reserved (R256). -/
def bufferUsed (s : State) (d : Nat) : Nat :=
  (ringAt s d).bufUsed + ((judgedHeads s).map (fun x => x.2.holds d)).foldl (· + ·) 0

/-- Whether a tile index of a frame is in progress already (R254 check 6). -/
def indexBusy (s : State) (d idx i n : Nat) : Bool :=
  (inProgress s d).any (fun x => x.1 == idx && decide (i < x.2.1 + x.2.2) && decide (x.2.1 < i + n))

/-- What a judgement says of a frame (R254, R256): discarded with a count, parked, waiting for its reservation, or going on
to check 7. -/
inductive Judged where
  | drop (f : RingCnt → RingCnt)
  | park
  | wait
  | go

/-- Whether a frame of a size finds room to be parked (R256). -/
def parkRoom (s : State) (d size : Nat) : Bool :=
  decide (bufferUsed s d + size ≤ landingSize) && decide ((ringAt s d).parked.length < 1024)

/-- The judgement of a TILE frame, whose header and tile header have arrived, at its sluice: checks 1 to 6, and the
reservation (R254, R256, R299). -/
def judgement (d : Nat) (f : Bytes) (s : State) : Judged :=
  let idx := fIndex f
  let i := fTile f
  let x := sluiceAt s (sluiceKey d idx)
  let n := lanesOfTile x.carry (fBody f)
  if x.present = false then .drop (fun c => { c with sluIndex := satAdd c.sluIndex 1 })
  else if x.st = .closed then (if parkRoom s d (reserved f) then .park else .wait)
  else if x.st = .draining ∨ x.marker = true then .drop (fun c => { c with sluLate := satAdd c.sluLate 1 })
  else if x.count < i + n ∨ tTid (fBody f) ≠ x.tid.toNat then .drop (fun c => { c with sluBounds := satAdd c.sluBounds 1 })
  else if x.vsrc ≠ 0 ∧ tVersion (fBody f) ≠ x.version then .drop (fun c => { c with sluVersion := satAdd c.sluVersion 1 })
  else if (List.range n).any (fun j => x.bits.contains (i + j)) ∨ indexBusy s d idx i n = true then
    .drop (fun c => { c with sluDup := satAdd c.sluDup 1 })
  else if x.units = false ∧ landingSize < bufferUsed s d + reserved f then .wait
  else .go

/-- The judgement of a MARKER frame: checks 1, 2, 4 and 6 (R254). -/
def markerJudgement (d : Nat) (f : Bytes) (s : State) : Judged :=
  let i := fieldB f 10 2
  let x := sluiceAt s (sluiceKey d (fieldB f 8 2 % 32768))
  if x.present = false then .drop (fun c => { c with sluIndex := satAdd c.sluIndex 1 })
  else if x.st = .closed then (if parkRoom s d f.length then .park else .wait)
  else if x.count ≤ i ∨ x.tid ≠ 0 then .drop (fun c => { c with sluBounds := satAdd c.sluBounds 1 })
  else if x.bits.contains i then .drop (fun c => { c with sluDup := satAdd c.sluDup 1 })
  else .go

/-- Hold a frame whose space or parking place cannot be reserved (R256). -/
def stall (d p vl : Nat) (f : Bytes) : State → State :=
  updRing d (fun r => { r with stalled := r.stalled ++ [{ port := p, vl := vl, bytes := f }] })

/-- Park a frame until its sluice opens; `size` is what it reserves (R256). -/
def park (d p vl idx size : Nat) (marker : Bool) (f : Bytes) (s : State) : State :=
  updSluice (sluiceKey d idx) (fun x => { x with parked := x.parked + 1 })
    (updRing d (fun r =>
      { r with bufUsed := r.bufUsed + size,
               parked := r.parked ++ [{ sluice := idx, port := p, vl := vl, isMarker := marker, bytes := f }] }) s)

/-- Note what became of a frame whose body still arrives; nothing is noted of a whole one. -/
def noteHead (p vl : Nat) (f : Bytes) (fate : HeadFate) (s : State) : State :=
  if whole f then s else updPort p (fun q => setLane vl { laneAt q vl with head := some (f.take headSize, fate) } q) s

/-- A whole frame ends that has passed checks 1 to 6: the copies of its cut-through go out, then check 7 decides. A
PASS descriptor that started while the frame arrived forwards it only once it is accepted (R254, R256, R277, R299, R300). -/
def endTile (d p : Nat) (f : Bytes) (cut : List Nat) (s : State) : State :=
  let idx := fIndex f
  let i := fTile f
  let tile := fBody f
  let x := sluiceAt s (sluiceKey d idx)
  let good := tileGood tile
  let ps := (passesFor s d idx i).filter (fun y => good || cut.contains (ownerOf y.1 y.2.tag))
  let s := ps.foldl (passOne i tile) s
  if good = false then refuseTile d idx i s
  else
    let bad := if x.carry then carryCheck true true (hopsIn s) tile else 0
    if bad ≠ 0 then fatal (ringFault bad d i) s else acceptTile d idx i (lanesOfTile x.carry tile) p (reserved f) tile s

/-- A whole frame ends whose sluice the engine has given up since its judgement: check 7 decides whether it goes to its unit
(R255). -/
def endDetached (d unit : Nat) (hostDriven : Bool) (f : Bytes) (cut : List Nat) (s : State) : State :=
  let tile := fBody f
  let good := tileGood tile
  let ps := (passesBy s (fun k r => cut.contains (ownerOf k r.desc.tag)) (fTile f))
  let s := ps.foldl (passOne (fTile f) tile) s
  if good = false then bump d (fun c => { c with sluCrc := satAdd c.sluCrc 1 }) s
  else
    let s := passMarks (fun k r => cut.contains (ownerOf k r.desc.tag)) (fTile f) s
    match unitBar hostDriven unit s with
    | some cause => fatal (ringFault cause d unit) s
    | none => writeUnit unit tile s

/-- What a frame in progress holds of the landing buffer: a frame for cluster memory its reservation; one that was parked
keeps its own until it is written (R256). -/
def heldRes (kept : Nat) (units : Bool) (f : Bytes) : Nat := if units then kept else reserved f

/-- Judge a TILE frame at its sluice: one whose body still arrives is then in progress, a whole one ends (R254, R256). `kept`
is what a frame that was parked has reserved. -/
def judgeTile (kept d p vl : Nat) (f : Bytes) (s : State) : State :=
  match judgement d f s with
  | .drop g => noteHead p vl f .dropped (bump d g s)
  | .park => noteHead p vl f .parked (park d p vl (fIndex f) (reserved f) false f s)
  | .wait => noteHead p vl f .stalled (stall d p vl f s)
  | .go =>
    let cut := (passesFor s d (fIndex f) (fTile f)).map (fun y => ownerOf y.1 y.2.tag)
    if whole f then endTile d p f cut s
    else noteHead p vl f (.inProgress d (heldRes kept (sluiceAt s (sluiceKey d (fIndex f))).units f) cut) s

/-- Judge a MARKER frame at its sluice (R254). -/
def judgeMarker (d p : Nat) (f : Bytes) (s : State) : State :=
  let idx := fieldB f 8 2 % 32768
  match markerJudgement d f s with
  | .drop g => bump d g s
  | .park => park d p 8 idx f.length true f s
  | .wait => stall d p 8 f s
  | .go => updSluice (sluiceKey d idx) (acceptBits (fieldB f 10 2) 1) s

/-- Put the whole frame in place of its beginning, where that is parked or waits (R256). -/
def fillFrame (p vl : Nat) (h f : Bytes) (s : State) : State :=
  { s with rings := Tab.mapVals Ring.reset (fun _ r =>
      { r with
        parked := replaceFirst (fun x => x.port == p && x.vl == vl && x.bytes.take headSize == h && !whole x.bytes)
          (fun x => { x with bytes := f }) r.parked,
        stalled := replaceFirst (fun x => x.port == p && x.vl == vl && x.bytes.take headSize == h && !whole x.bytes)
          (fun x => { x with bytes := f }) r.stalled }) s.rings }

/-- A TILE frame, whole or as far as it has arrived, reaches the ring die that owns its sluice. It is judged once its
header and tile header are there; the rest then follows what its judgement said (R254 to R256). -/
def tileArrives (d p vl : Nat) (f : Bytes) (s : State) : State :=
  if f.length < headSize then s
  else
    let head := (laneAt (portAt s p) vl).head
    let t := updPort p (fun q => setLane vl { laneAt q vl with head := none } q) s
    match head.filter (fun h => h.1 == f.take headSize) with
    | none => judgeTile 0 d p vl f t
    | some (h, fate) =>
      if whole f = false then s
      else
        match fate with
        | .dropped => t
        | .parked => fillFrame p vl h f t
        | .stalled => fillFrame p vl h f t
        | .inProgress die _ cut => endTile die p f cut t
        | .detached die _ unit hostDriven cut => endDetached die unit hostDriven f cut t

/-- A parked frame leaves its place and is judged. Its reservation is freed when it is discarded, written or landed: a frame
whose body still arrives keeps it until then (R256). Nothing is judged in the safe state (R399). -/
def judgeOne (d : Nat) (s : State) (e : Parked) : State :=
  if isSafe s then s
  else
    let s := updRing d (fun r =>
      { r with parked := removeFirst (fun x => x == e) r.parked, bufUsed := r.bufUsed - e.size }) s
    let s := updSluice (sluiceKey d e.sluice) (fun x => { x with parked := x.parked - 1 }) s
    if e.isMarker then judgeMarker d e.port e.bytes s else judgeTile e.size d e.port e.vl e.bytes s

/-- Judge the frames parked for a sluice, in arrival order (R256). -/
def judgeParked (d idx : Nat) (s : State) : State :=
  ((ringAt s d).parked.filter (fun e => e.sluice == idx)).foldl (judgeOne d) s

/-! ## Opening and closing (R253, R255, R268, R275, R278) -/

/-- What becomes of a frame in progress at a sluice that the engine gives up (R255): one for a unit goes on to it, any other
has no place left (log entry 42). -/
def detachFate (s : State) (h : Bytes) (fate : HeadFate) : HeadFate :=
  match fate with
  | .inProgress d res cut =>
    let x := sluiceAt s (sluiceKey d (fIndex h))
    if x.units && !x.carry then .detached d res (x.firstUnit + fTile h) x.host cut else .dropped
  | other => other

/-- The sluices that a test picks are given up under the frames in progress at them (R255). -/
def detachSluices (pick : Nat → Bool) (s : State) : State :=
  let fate (x : Bytes × HeadFate) : Bytes × HeadFate :=
    match x.2 with
    | .inProgress d _ _ => if pick (sluiceKey d (fIndex x.1)) then (x.1, detachFate s x.1 x.2) else x
    | _ => x
  { s with ports := Tab.mapVals Port.reset (fun _ q =>
      { q with lanes := Tab.mapVals Lane.reset (fun _ l => { l with head := l.head.map fate }) q.lanes }) s.ports }

/-- The version a sluice latches at its opening (R252, R268). STEP + 1 of the last STEP, 2^48 − 1, is 2^48 here, which no
tile carries (log entry 81). -/
def latchVersion (vsrc step : Nat) : Nat := if vsrc = 1 then step else if vsrc = 2 then step + 1 else 0

/-- Open a sluice: its state is set, the head's whole-shard request goes out, held requests are examined again and
parked frames are judged (R253, R256, R275, R278). -/
def openSluice (k : Nat) (s : State) : State :=
  let d := k / 32768
  let idx := k % 32768
  let s := updSluice k (fun x =>
    { x with landed := 0, bits := [], version := latchVersion x.vsrc s.runBlk.step,
             st := if x.count = 0 then .complete else .opened, check := 0, rerq := 0, tries := [] }) s
  let x := sluiceAt s k
  let s := match isShard x, (roleBundle s rHeadgate).bind (fun b => memberPort s b 0) with
    | true, some p =>
      postShardReq p idx x.version 0 x.count x.tid false
        (bumpSent d p (fun c => { c with shardReqTx := satAdd c.shardReqTx 1 }) s)
    | _, _ => s
  judgeParked d idx (reexamine d idx s)

/-- Close a sluice (R253, R254, R278): the audit, SLU_SHORT, draining while tiles wait for their landing slots, and the
requests it was serving. -/
def closeSluice (k : Nat) (s : State) : State :=
  let d := k / 32768
  let idx := k % 32768
  let x := sluiceAt s k
  if x.st = .closed then s
  else
    let waits := (ringAt s d).waiting.any (fun t => t.sluice == idx)
    let cut := ((ringAt s d).reqs.filter (fun q => q.served && q.sluice == idx)).length
    let s := if x.landed < x.count ∧ x.st ≠ .draining then bump d (fun c => { c with sluShort := satAdd c.sluShort 1 }) s else s
    let s := staleReq d cut (updRing d (fun r => { r with reqs := r.reqs.filter (fun q => !(q.served && q.sluice == idx)) }) s)
    let s := updSluice k (fun x => { x with st := if waits && !x.units then .draining else .closed }) s
    if x.landed = x.bits.length then s else fatal (ringFault cSluiceAudit d idx) s

/-! ## The shard check (R272) -/

/-- The SHA-256 of the frames of units, in ascending tile index; the flag says that a granule was uncorrectable. -/
def shardHash (first n : Nat) (s : State) : Bytes × Bool × State :=
  let r := (List.range n).foldl (fun (acc : Bytes × Bool × State) i =>
    let u := readUnit (first + i) acc.2.2
    (acc.1 ++ u.1, acc.2.1 || u.2.1, u.2.2)) ([], false, s)
  (sha256 r.1, r.2.1, r.2.2)

/-- Run the check of a complete shard sluice (R272). -/
def runCheck (d idx : Nat) (s : State) : State :=
  let k := sluiceKey d idx
  let x := sluiceAt s k
  let h := shardHash x.firstUnit (x.count - 1) s
  let last := readUnit (x.firstUnit + (x.count - 1)) h.2.2
  let s := updRing d (fun r => { r with checks := r.checks.erase idx }) last.2.2
  let failed (cause : Nat) : State := fatal (ringFault cause d idx) (updSluice k (fun x => { x with check := 3 }) s)
  if h.2.1 || last.2.1 then failed cEccUncorr
  else if sealStatus last.1 = 1 ∨ sealStatus last.1 = 2 then failed cShardRefused
  else if sealStatus last.1 = 0 ∧ sealTiles last.1 = x.count - 1 ∧ sealDigest last.1 = h.1 then
    bump d (fun c => { c with shardChecks := satAdd c.shardChecks 1 }) (updSluice k (fun x => { x with check := 2 }) s)
  else failed cShardDigest

end Sys2Proof.Machine
end

