-- ==== Sys2Proof/Machine/Stage.lean ====
section
/-! DEFINITION. Staging and extraction lists of the stack controllers (R220 to R224, R269, R300): their start, the reads
of a staging list and the commands that write an extraction tile. -/

namespace Sys2Proof.Machine

/-- Rows of a whole list. -/
def listRows (l : StageList) : Nat := (l.entries.map (fun e => e.count * e.tileRows)).foldl (· + ·) 0

/-- Tiles of a whole list. -/
def listTiles (es : List StageEnt) : Nat := (es.map (fun e => e.count)).foldl (· + ·) 0

/-- Whether a unit is one that a list names. -/
def namesUnit (l : StageList) (u : Nat) : Bool := l.entries.any (fun e => decide (e.unit ≤ u) && decide (u < e.unit + e.count))

/-- Start a list at the release of its START_WEIR; a list without tiles is complete at once (R222, R223). -/
def startStage (l : StageList) : StageList :=
  { l with st := if l.total = 0 then .complete else .executing, done := 0, rows := [], rowsRead := 0, bytes := [] }

/-- A list that has started and is not complete (R220). -/
def stageOpen (l : StageList) : Bool := l.st == .executing

/-- Whether a started, incomplete staging or extraction list names a unit (R220). -/
def stageLocks (s : State) (u : Nat) : Bool := s.tier.stages.any (fun e => stageOpen e.2 && namesUnit e.2 u)

/-- Whether the injection buffer holds the list's first 2,048 rows, or the whole list, none of them injected yet (R222). -/
def rowsAhead (l : StageList) : Bool :=
  decide (min 2048 (listRows l) ≤ l.rowsRead) && l.rows.length == l.rowsRead &&
    (match l.rows with | [] => true | r :: _ => r.2.2.length == 512)

/-- Whether a STAGED condition holds: the list has started in this run, its first rows are in the injection buffer, and
no completed extraction tile waits to be written to the list's slots (R162, R222, R224). -/
def stagedHolds (s : State) (stack l : Nat) : Bool :=
  let x := stageAt s (stageKey stack false l)
  weirReleased s x.startWeir && (x.st == .executing || x.st == .complete) && rowsAhead x &&
    !s.tier.stages.any (fun e => (waitingTiles e.2).any (fun w => namesUnit x (w.1.unit + w.2)))

/-- Rows that the staging lists of a stack hold in its injection buffer. -/
def injectionRows (s : State) (stack : Nat) : Nat :=
  ((s.tier.stages.filter (fun e => e.1 / 131072 == stack)).map (fun e => e.2.rows.length)).foldl (· + ·) 0

/-- Rows of the injection buffer, 2 MiB (R221). -/
def injectionSize : Nat := 4096

/-- The rows of a tile as they go to the injection buffer: MEM, ROW, bytes (R221). -/
def stageRowsOf (e : StageEnt) (i : Nat) (t : Bytes) : List (Bool × Nat × Bytes) :=
  let rows := chunksB 512 32 (tPayload t) ++ chunksB 512 e.trailRows (sliceB (tTrailer t) 0 (512 * e.trailRows))
  rows.zipIdx.map (fun r => (e.amem, e.row + i * e.rowStep + r.2, r.1))

/-- A staging list's tile read from its unit (R209, R220, R222, R224, R269). -/
def readStaged (stack k : Nat) (x : StageList) (e : StageEnt) (i : Nat) (s : State) : State :=
  let u := e.unit + i
  match unitBar false u s with
  | some cause => fatal (stackFault cause stack u) s
  | none =>
    let r := readUnit u s
    if r.2.1 then fatal (stackFault cEccUncorr (mapAt s u).stack u) r.2.2
    else if tileGood r.1 = false then fatal (stackFault cTierCrc stack u) r.2.2
    else if bit (tTid r.1) 31 ∧ tVersion r.1 ≠ s.runBlk.step then fatal (stackFault cVersionMismatch stack u) r.2.2
    else
      let rows := stageRowsOf e i r.1
      setStage k { x with done := x.done + 1, rows := x.rows ++ rows, rowsRead := x.rowsRead + rows.length } r.2.2

/-- The next completed tile of an extraction list in a mode is written, after the writes that started before it (R223,
R224). -/
def extractStep (mode stack list : Nat) (s : State) : Out :=
  onPlace (decide (stack < 16))
    (let k := stageKey stack true list
     match waitingTiles (stageAt s k) with
     | (e, _) :: _ =>
       if e.mode ≠ mode then s else writeNext ((s.tier.writes.takeWhile (fun w => w.list != k)).foldl (fun s w => writeNext s w.list) s) k
     | [] => s)

/-- STAGING_READ: a started staging list reads its next tile once the injection buffer has room for it (R222). How far it
reads ahead is the environment's, one tile a command; the gate's slot for a row that has not been read idles (DESIGN CHOICE,
log entry 105). -/
def execStagingRead (stack list : Nat) (s : State) : Out :=
  onPlace (decide (stack < 16))
    (inOrder (fun s =>
      let k := stageKey stack false list
      let x := stageAt s k
      match isSafe s, x.st, tileOf x.entries x.done with
      | false, .executing, some (e, i) =>
        if injectionSize < injectionRows s stack + e.tileRows then s else readStaged stack k x e i s
      | _, _, _ => s) s)

/-- STORE: a completed extraction tile replaces its slot's payload and header (R223). -/
def execStore (stack list : Nat) (s : State) : Out := extractStep 0 stack list s

/-- ADD_F32: a completed extraction tile is added to the stored payload as FP32 lanes (R223). -/
def execAddF32 (stack list : Nat) (s : State) : Out := extractStep 1 stack list s

/-- ADD_I64: a completed extraction tile is added to the stored payload as 64-bit integers (R223). -/
def execAddI64 (stack list : Nat) (s : State) : Out := extractStep 2 stack list s

end Sys2Proof.Machine
end

