-- ==== Sys2Proof/Machine/Tq.lean ====
section
/-! DEFINITION. Transfer queues: descriptors, their start and progress, completions, commits (R258 to R264, R282 to
R284, R297). A descriptor sends at its start what its sources hold, and the rest when its completion is tried (log
entry 27). -/

namespace Sys2Proof.Machine

/-- Change a running descriptor. -/
def updRun (k no : Nat) (f : Running → Running) : State → State :=
  updQueue k (fun q => { q with running := q.running.map (fun r => if r.no = no then f r else r) })

/-- The running descriptor of a queue with a tag. -/
def runOf (s : State) (k : Nat) (tag : W32) : Option Running := (queueAt s k).running.find? (fun r => r.desc.tag == tag)

/-! ## Sources -/

/-- Units that a descriptor reads or writes. -/
def unitsOf (d : Desc) : List Nat :=
  if d.kind = 4 then (List.range d.count).map (· + d.dunit)
  else if d.srcx ∨ d.kind = 3 ∨ d.kind = 6 then [] else (List.range d.count).map (· + d.src)

/-- What bars a descriptor: its status, or the fatal ownership fault of a manifest descriptor (R220, R260). -/
def ownershipBar (d : Desc) (s : State) : Option Nat :=
  let us := (unitsOf d).filter (fun u => (mapAt s u).res)
  if inRun s = false then none
  else if d.host then (if us.any (fun u => !hostAcc s u) then some stOwnership else none)
  else if us.any (fun u => hostAcc s u) then some cTierOwnership
  else none

/-- Whether a descriptor may not touch a resident unit: during a run the host's own work keeps to accounts with HOSTACC, and
what the manifest drives to the others (R220, R260). -/
def foreignUnit (d : Desc) (u : Nat) (s : State) : Bool := inRun s && hostAcc s u != d.host

/-- A descriptor meets a unit that it may not touch: the host's completes with OWNERSHIP, the manifest's is fatal (R220,
R260). -/
def endForeign (k : Nat) (r : Running) (u : Nat) (s : State) : State :=
  if r.desc.host then completeRun k r stOwnership s else fatal (ringFault cTierOwnership (k / 2048) u) s

/-- What a source gives next. -/
inductive Source where
  | tile (t : Bytes)
  | wait
  | missing
  | foreign (unit : Nat)
  | uncorrectable (stack unit : Nat)
deriving DecidableEq, Repr

/-- Bytes of an extraction buffer that one tile takes (R257). -/
def extractSize (d : Desc) : Nat := payloadSize + (d.trb + 31) / 32 * 32

/-- Tile i of a descriptor from its unit, or from the extraction buffer, whose bytes it takes (R257, R258). -/
def nextTile (k i : Nat) (d : Desc) (s : State) : Source × State :=
  if d.srcx then
    let die := k / 2048
    let buf := Tab.get [] (ringAt s die).extract d.src
    if buf.length < extractSize d then (.wait, s)
    else
      (.tile (buildTile { tid := d.tid.toNat, version := s.runBlk.step, row := d.trow, col := d.tcol + i, fmt := d.fmt, shape := d.shape }
          (payloadOf d.fmt buf) ((buf.drop payloadSize).take d.trb)),
       updRing die (fun r => { r with extract := Tab.set [] r.extract d.src (buf.drop (extractSize d)) }) s)
  else
    let u := d.src + i
    if (mapAt s u).res = false then (.missing, s)
    else if foreignUnit d u s then (.foreign u, s)
    else
      let r := readUnit u s
      if r.2.1 then (.uncorrectable (mapAt s u).stack u, r.2.2) else (.tile r.1, r.2.2)

/-! ## Progress (R259, R282, R297) -/

/-- The tile as it leaves: on an OUTLET bundle with version STEP + 1 (R282). -/
def outTile (outlet : Bool) (s : State) (t : Bytes) : Bytes :=
  if outlet then
    let head := t.take 4 ++ toLe 6 (s.runBlk.step + 1) ++ (t.drop 10).take 50
    head ++ toLe 4 (crc32c head).toNat ++ t.drop 64
  else t

/-- Send one tile of a COPY, CARRY lane tile unchanged, or STORE. -/
def sendOne (k : Nat) (r : Running) (i : Nat) (t : Bytes) (s : State) : State :=
  let d := r.desc
  let p := framePort s k i
  let f := if d.kind = 5 then bulkFrame (portAt s p) 2 0 (d.home + i) t else tileFrame (portAt s p) d.dsl (d.dfirst + i) t
  postBulk p d.vl f (ownerOf k d.tag) s

/-- The closing OUTLET_TILE of a COPY and its seal record (R282). -/
def sendSeal (k : Nat) (r : Running) (bytes : Bytes) (s : State) : State :=
  let d := r.desc
  let tid := tTid bytes
  let digest := sha256 bytes
  let p := framePort s k d.count
  let f := bulkFrame (portAt s p) 6 d.dsl (d.dfirst + d.count) (sealTile tid (s.runBlk.step + 1) d.count digest)
  { postFrame p { vl := d.vl, bytes := f, fresh := true, owner := ownerOf k d.tag, tiles := 0, carry := false } s with
    seals := s.seals ++ [{ bundle := queueBundle s k, tid := BitVec.ofNat 32 tid, digest := digest }] }

/-- Send the next tiles of a COPY or STORE, at most `n` (R259, R282). -/
def copyTiles (k no : Nat) : Nat → State → State
  | 0, s => s
  | n + 1, s =>
    match (queueAt s k).running.find? (fun r => r.no == no) with
    | none => s
    | some r =>
      if r.desc.count ≤ r.sent then s
      else
        match nextTile k r.sent r.desc s with
        | (.wait, s) => s
        | (.missing, s) => completeRun k r stNotResident s
        | (.foreign u, s) => endForeign k r u s
        | (.uncorrectable st u, s) => fatal (stackFault cEccUncorr st u) s
        | (.tile t, s) =>
          let outlet := onOutlet s k && r.desc.kind == 1
          let t := outTile outlet s t
          let bytes := if outlet then r.sentBytes ++ t else []
          let s := sendOne k r r.sent t s
          let s := if outlet ∧ r.sent + 1 = r.desc.count then sendSeal k r bytes s else s
          copyTiles k no n (updRun k no (fun r => { r with sent := r.sent + 1, sentBytes := bytes }) s)

/-- How reading the lane tiles of a CARRY ends early: a source unit not resident or not its own, or a fatal fault. -/
inductive LaneEnd where
  | notResident
  | foreign (unit : Nat)
  | fault (f : FaultRec)
deriving DecidableEq, Repr

/-- Read up to `n` lane tiles of a CARRY from tile i on, checking each (R300): the tiles, and how it ended early. A
source that holds no whole tile yet just gives fewer. -/
def laneTiles (k : Nat) (d : Desc) : Nat → Nat → State → List Bytes × Option LaneEnd × State
  | 0, _, s => ([], none, s)
  | n + 1, i, s =>
    match nextTile k i d s with
    | (.wait, s) => ([], none, s)
    | (.missing, s) => ([], some .notResident, s)
    | (.foreign u, s) => ([], some (.foreign u), s)
    | (.uncorrectable st u, s) => ([], some (.fault (stackFault cEccUncorr st u)), s)
    | (.tile t, s) =>
      let bad := carryCheck false true (hopsOut s) t
      if bad ≠ 0 then ([], some (.fault (ringFault bad (k / 2048) i)), s)
      else
        let r := laneTiles k d n (i + 1) s
        (t :: r.1, r.2.1, r.2.2)

/-- Send the next wire tiles of a CARRY: SC lane tiles are gathered as their source gives them and packed, the other
formats go one by one (R251, R297, R301). -/
def carryTiles (k no : Nat) : Nat → Nat → State → State
  | 0, _, s => s
  | fuel + 1, frame, s =>
    match (queueAt s k).running.find? (fun r => r.no == no) with
    | none => s
    | some r =>
      let d := r.desc
      if d.count ≤ r.sent then s
      else
        let sc := packsLanes s d
        let n := min (if sc then wireLanes s else 1) (d.count - r.sent)
        match laneTiles k d (n - r.lanes.length) (r.sent + r.lanes.length) s with
        | (_, some (.fault f), s) => fatal f s
        | (_, some .notResident, s) => completeRun k r stNotResident s
        | (_, some (.foreign u), s) => endForeign k r u s
        | (ts, none, s) =>
          let ts := r.lanes ++ ts
          if ts.length < n then updRun k no (fun r => { r with lanes := ts }) s
          else
            let p := framePort s k frame
            let t := if sc then packWire ts else ts.headD []
            let s := postFrame p
              { vl := d.vl, bytes := tileFrame (portAt s p) d.dsl (d.dfirst + r.sent) t, fresh := true,
                owner := ownerOf k d.tag, tiles := n, carry := true } s
            carryTiles k no fuel (frame + 1) (updRun k no (fun r => { r with sent := r.sent + n, lanes := [] }) s)

/-- Frames a CARRY has sent before: wire tiles of G lanes each (R297). -/
def framesSent (s : State) (r : Running) : Nat :=
  if packsLanes s r.desc then (r.sent + wireLanes s - 1) / max 1 (wireLanes s) else r.sent

/-- Forward a tile that the sluice has accepted already, as stored; one in cluster memory is there no more (R259, R277). -/
def passStored (k no i : Nat) (s : State) : State :=
  match (queueAt s k).running.find? (fun r => r.no == no) with
  | none => s
  | some r =>
    let die := sluiceOwner s (k / 2048) r.desc.src
    let x := sluiceAt s (sluiceKey die r.desc.src)
    let u := x.firstUnit + i
    if x.units = false then s
    else if (mapAt s u).res = false then completeRun k r stNotResident s
    else if foreignUnit r.desc u s then endForeign k r u s
    else
      let t := readUnit u s
      if t.2.1 then fatal (stackFault cEccUncorr (mapAt s u).stack u) t.2.2
      else
        updRun k no (fun r => { r with done := r.done + 1, written := insertNat i r.written })
          (passOne i t.1 t.2.2 (k, r.desc))

/-- The HOME_READs of a FETCH, one for each member with tiles (R251, R259). -/
def sendReads (k : Nat) (r : Running) (s : State) : State :=
  let m := queueSize s k
  (List.range (min m r.desc.count)).foldl (fun s j =>
    let p := framePort s k j
    let n := (r.desc.count - j + m - 1) / m
    postBulk p 6 (bulkFrame (portAt s p) 3 n (r.desc.home + j) (toLe 4 ((r.readId + j) % 2 ^ 32) ++ toLe 2 m ++ zeros 2))
      (ownerOf k r.desc.tag) s) s

/-- The seals of the run on a bundle in a range of tensor identifiers, in ascending order (R283). -/
def sealsIn (s : State) (bundle lo hi : Nat) : List Seal :=
  (s.seals.filter (fun x => x.bundle == bundle && decide (lo ≤ x.tid.toNat) && decide (x.tid.toNat ≤ hi))).mergeSort
    (fun a b => decide (a.tid.toNat ≤ b.tid.toNat))

/-- Send a COMMIT frame from its unit and record it (R283). -/
def sendCommit (k : Nat) (r : Running) (s : State) : State :=
  let u := readUnit r.desc.src s
  let b := (tPayload u.1).take 40
  let seals := sealsIn s (queueBundle s k) (fieldB b 8 4) (fieldB b 12 4)
  let d16 := (sha256 (seals.flatMap (fun x => x.digest))).take 16
  let payload := toLe 6 (s.runBlk.step + 1) ++ (b.drop 6).take 10 ++ toLe 4 seals.length ++ (b.drop 20).take 4 ++ d16
  let rec_ : Commit :=
    { bundle := queueBundle s k, version := s.runBlk.step + 1, seq := fieldB b 20 4, digest16 := d16,
      final := bit (fieldB b 6 2) 0, acked := false }
  if u.2.1 then fatal (stackFault cEccUncorr (mapAt s r.desc.src).stack r.desc.src) u.2.2
  else
    let s := postControl (k / 1024) 6 payload (ownerOf k r.desc.tag) u.2.2
    updRun k r.no (fun r => { r with sent := 1 }) { s with commits := s.commits ++ [rec_] }

/-- Send what a started descriptor can send now. -/
def progress (k no : Nat) (s : State) : State :=
  match (queueAt s k).running.find? (fun r => r.no == no) with
  | none => s
  | some r =>
    if r.desc.kind = 1 ∨ r.desc.kind = 5 then copyTiles k no (r.desc.count - r.sent) s
    else if r.desc.kind = 2 then carryTiles k no (r.desc.count - r.sent) (framesSent s r) s
    else s

/-- The first work of a descriptor that starts (R259). -/
def firstWork (k : Nat) (r : Running) (s : State) : State :=
  let d := r.desc
  if d.kind = 3 then
    let die := sluiceOwner s (k / 2048) d.src
    ((sluiceAt s (sluiceKey die d.src)).bits.filter (fun i => decide (i < d.count))).foldl (fun s i => passStored k r.no i s) s
  else if d.kind = 4 then sendReads k r s
  else if d.kind = 6 then
    updRun k r.no (fun r => { r with sent := 1 })
      (postControl (k / 1024) 4 (toLe 2 d.dsl ++ toLe 2 d.dfirst ++ zeros 4 ++ toLe 6 d.home) (ownerOf k d.tag) s)
  else if d.kind = 7 then
    (if (mapAt s d.src).res = false then completeRun k r stNotResident s
     else if foreignUnit d d.src s then endForeign k r d.src s
     else sendCommit k r s)
  else progress k r.no s

/-! ## Start (R260, R273) -/

/-- Whether the check of a completed shard sluice is pending (R273). -/
def checksPending (s : State) : Bool := s.rings.any (fun e => !e.2.checks.isEmpty)

/-- The next descriptor of a queue, if it may start now (R260, R273). -/
def startable (s : State) (k : Nat) : Option Desc :=
  let q := queueAt s k
  match q.descs[if q.manifest then q.next else 0]? with
  | none => none
  | some d =>
    if 16 ≤ q.running.length ∨ (q.manifest = true ∧ weirReleased s d.startWeir = false)
       ∨ ((d.kind = 2 ∨ d.kind = 7) ∧ checksPending s = true) then none
    else some d

/-- What ends a descriptor as it starts: a bad descriptor, one whose seal has no index (R282), a port DOWN or CEASED, or
ownership (R241, R246, R260, R262). -/
def startBar (s : State) (k : Nat) (d : Desc) : Option Nat :=
  if d.ok = false then some stBadDescriptor
  else if d.count = 0 then some stOk
  else if d.kind = 1 ∧ onOutlet s k = true ∧ 65535 < d.dfirst + d.count then some stBadDescriptor
  else if (portsOf s k d).any (fun p => (portAt s p).st == .down || (portAt s p).st == .off) then some stLinkDown
  else if (portsOf s k d).any (fun p => (portAt s p).st == .ceased) then some stPeerCeased
  else if d.host then ownershipBar d s
  else none

/-- Start the next descriptor of a queue (R259, R260). -/
def startDesc (k : Nat) (d : Desc) (s : State) : State :=
  let q := queueAt s k
  let r : Running :=
    { desc := d, no := if d.host then d.no else q.started, done := 0, sent := 0, readId := s.readIds, written := [], tries := [], rereads := [],
      sentBytes := [], lanes := [] }
  let ids := if d.kind = 4 then queueSize s k else 0
  let s := updQueue k (fun q =>
    { q with started := q.started + 1, running := q.running ++ [r],
             next := if q.manifest then q.next + 1 else q.next, descs := if q.manifest then q.descs else q.descs.drop 1 })
    { s with readIds := (s.readIds + ids) % 2 ^ 32 }
  match startBar s k d with
  | some status => completeRun k r status s
  | none =>
    if d.host = false ∧ ownershipBar d s = some cTierOwnership then fatal (ringFault cTierOwnership (k / 2048) d.src) s
    else firstWork k r s

/-- Whether a started descriptor has done all its rules ask (R259). -/
def finished (s : State) (k : Nat) (r : Running) : Bool :=
  let d := r.desc
  (if d.kind = 3 ∨ d.kind = 4 then d.count == r.done
   else if d.kind = 6 ∨ d.kind = 7 then r.sent == 1
   else d.count == r.sent) &&
    (d.kind == 4 || !(s.ports.any (fun e => owes (ownerOf k d.tag) e.2)))

/-! ## TQ and COMMIT conditions (R261, R284) -/

/-- Whether a TQ condition holds: the tag has completed, and every descriptor posted before it (R261). -/
def tqHolds (s : State) (k : Nat) (tag : W32) : Bool :=
  let q := queueAt s k
  match q.recent.find? (fun e => e.1 == tag && (!q.manifest || decide (q.base ≤ e.2))) with
  | some e => q.running.all (fun r => decide (e.2 < r.no)) && q.descs.all (fun d => !d.host || decide (e.2 < d.no))
  | none => false

/-- Whether a COMMIT condition holds for an OUTLET bundle (R284). -/
def commitHolds (s : State) (bundle : Nat) : Bool :=
  let cs := s.commits.filter (fun c => c.bundle == bundle)
  cs.any (fun c => c.final && c.acked && (List.range c.seq).all (fun n => cs.any (fun x => x.seq == n && x.acked)))

/-! ## The commands -/

/-- DESCRIPTOR_START: the next descriptor of a queue starts once it may (R259, R260, R273); never in the safe state
(R399). -/
def execDescriptorStart (q : Nat) (s : State) : Out :=
  onPlace (decide (q < 24576))
    (inOrder (fun s =>
      if isSafe s then s
      else match startable s q with
        | some d => startDesc q d s
        | none => s) s)

/-- DESCRIPTOR_COMPLETE: a started descriptor that has done and been acknowledged all it sends completes with OK; one
with a port DOWN or CEASED with that status (R241, R246, R259, R261). -/
def execDescriptorComplete (q : Nat) (tag : W32) (s : State) : Out :=
  onPlace (decide (q < 24576))
    (inOrder (fun s =>
      if isSafe s then s
      else
        match runOf s q tag with
        | none => s
        | some r =>
          let s := progress q r.no s
          match runOf s q tag with
          | none => s
          | some r => if isSafe s = false ∧ finished s q r = true then completeRun q r stOk s else s)
      s)

/-- TIMEOUT: a started descriptor that completed no tile for 25 ms while its ports are UP (R263). -/
def execTimeout (q : Nat) (tag : W32) (s : State) : Out :=
  onPlace (decide (q < 24576))
    (inOrder (fun s =>
      if isSafe s then s
      else
        match runOf s q tag with
        | none => s
        | some r =>
          if (portsOf s q r.desc).all (fun p => (portAt s p).st == .up) then completeRun q r stTimeout s else s) s)

/-- The running FETCH that made a read, with the tile index of a position of it (R259). -/
def fetchOf (s : State) (id pos : Nat) : Option (Nat × Running × Nat) :=
  s.queues.findSome? (fun e => e.2.running.findSome? (fun r =>
    if r.desc.kind ≠ 4 then none
    else
      match r.rereads.find? (fun x => x.1 == id) with
      | some x => if pos = 0 then some (e.1, r, x.2) else none
      | none =>
        let m := queueSize s e.1
        let j := (id + 2 ^ 32 - r.readId) % 2 ^ 32
        if j < m ∧ j + pos * m < r.desc.count then some (e.1, r, j + pos * m) else none))

/-- A FETCH answer whose CRC fails is asked for again, three times at most (R259). -/
def refetch (k i : Nat) (r : Running) (s : State) : State :=
  let n := Tab.get 0 r.tries i
  if 3 ≤ n then completeRun k r stRemoteCrc s
  else
    let p := framePort s k i
    let id := s.readIds
    postBulk p 6 (bulkFrame (portAt s p) 3 1 (r.desc.home + i) (toLe 4 id ++ toLe 2 1 ++ zeros 2)) (ownerOf k r.desc.tag)
      (updRun k r.no (fun r => { r with tries := Tab.set 0 r.tries i (n + 1), rereads := r.rereads ++ [(id, i)] })
        { s with readIds := (id + 1) % 2 ^ 32 })

/-- The running descriptors that take their tiles from extraction buffers take what these hold now (R257, R258). -/
def feedDescs (s : State) : State :=
  (s.queues.flatMap (fun e => (e.2.running.filter (fun r => r.desc.srcx)).map (fun r => (e.1, r.no)))).foldl
    (fun s x => if isSafe s then s else progress x.1 x.2 s) s

/-- What a HOME_DATA frame does (R220, R259, R260). -/
def homeDataWork (p : Nat) (f : Bytes) (s : State) : State :=
  match fetchOf s (fieldB f 12 4) (fieldB f 16 2) with
  | none => bump (p / 2) (fun c => { c with sluDup := satAdd c.sluDup 1 }) s
  | some (k, r, i) =>
    if r.written.contains i then bump (p / 2) (fun c => { c with sluDup := satAdd c.sluDup 1 }) s
    else if tileGood (fBody f) = false then refetch k i r s
    else if (mapAt s (r.desc.dunit + i)).res = false then completeRun k r stNotResident s
    else if foreignUnit r.desc (r.desc.dunit + i) s then endForeign k r (r.desc.dunit + i) s
    else
      updRun k r.no (fun r => { r with done := r.done + 1, written := insertNat i r.written })
        (writeUnit (r.desc.dunit + i) (fBody f) s)

/-- HOME_DATA: an answer to a HOME_READ (R245, R259). -/
def execHomeData (p vl : Nat) (frame : Bytes) (s : State) : Out :=
  onPlace (decide (p < 24) && decide (vl < 8)) (receiveBulk p vl 4 frame (fun f => inOrder (homeDataWork p f)) s)

/-- An answer to a commit record: the record it matches, or none (R284). -/
def commitMatches (bundle : Nat) (f : Bytes) (c : Commit) : Bool :=
  c.bundle == bundle && !c.acked && c.version == fieldB f 8 6 && c.seq == fieldB f 28 4 && c.digest16 == sliceB f 32 16

/-- COMMIT_ACK: answers a commit record, is stray, or is fatal with a non-zero STATUS (R284). -/
def execCommitAck (p : Nat) (frame : Bytes) (s : State) : Out :=
  onPlace (decide (p < 24)) (receiveControl p 7 frame (fun s =>
    let b := (portAt s p).bundle
    if s.commits.any (commitMatches b frame) then
      (if fieldB frame 14 2 = 0 then
         { s with commits := replaceFirst (commitMatches b frame) (fun c => { c with acked := true }) s.commits }
       else fatal (ringFault cCommitReject (p / 2) (fieldB frame 14 2)) s)
    else bump (p / 2) (fun c => { c with commitStray := satAdd c.commitStray 1 }) s) s)

end Sys2Proof.Machine
end

