-- ==== Sys2Proof/Machine/Ports.lean ====
section
/-! DEFINITION. The ports' link layer (R235 to R243, R246, R399): link-up, flits, replay, retrain, DOWN, CEASED and the
credit audit. Each accepted flit is acknowledged, and each freed one credited, by an idle flit that leaves at once (log
entry 33). LINK_INIT is the first flit of the control channel after a link-up (log entry 32). -/

namespace Sys2Proof.Machine

/-! ## Link-up (R238, R242) -/

/-- A lane at a link-up: the counters of R238 and R242 start at zero; the seal counters go on (R249). -/
def freshLane (l : Lane) : Lane := { Lane.reset with sealTx := l.sealTx, sealRx := l.sealRx }

/-- A flit that no acknowledgement can name after a link-up; it stays only for the descriptors it belongs to. -/
def strand (f : Sent) : Sent := { f with ch := 9 }

/-- What stays of a frame that a link-up cuts: its descriptor, which then never sees it acknowledged (R259, R263). -/
def strandFrame (f : TxFrame) : Sent := { ch := 9, seq := 0, bytes := f.bytes, owners := [(f.owner, f.tiles)] }

/-- A port's counters and buffers at a link-up (R238); frames begun before it are cut, frames of descriptors that have not
begun stay posted. -/
def linkZero (p : Port) : Port :=
  { p with
    lanes := Tab.mapVals Lane.reset (fun _ l => freshLane l) p.lanes, ctlExpect := 0, ctlSend := 0, ctlGap := false,
    retry := (p.retry.filter (fun f => f.owners.any (fun o => o.1 != 0))).map strand ++
      (p.txq.filter (fun f => !f.fresh && f.owner != 0)).map strandFrame,
    txq := p.txq.filter (fun f => f.fresh), ctlq := p.ctlq.filter (fun f => f.1 != 0), window := [] }

/-- The LINK_INIT frame of a port (R246). -/
def initFrame (s : State) (p : Nat) : Bytes := toLe 8 s.dev.physId.toNat ++ toLe 1 p

/-- Send LINK_INIT on a port, before anything else (R238). -/
def sendInit (p : Nat) (s : State) : State :=
  pump p (updPort p (fun q =>
    { q with initSent := true, ctlq := (0, controlFrame q 1 (initFrame s p)) :: q.ctlq }) s)

/-- A port is up once it has sent and received LINK_INIT (R238). -/
def linkUp (p : Nat) (s : State) : State :=
  pump p (logPort 0x0603 p (updPort p (fun q => { q with st := .up, initSent := false, initRx := false }) s))

/-- Start a link-up: the port trains toward PCS lock (R238). -/
def startTraining (q : Port) : Port := { linkZero q with st := .training, initSent := false, initRx := false }

/-- A fresh link-up of a port that is not DOWN; a DOWN port comes back only through its reset (R241). -/
def trainUnlessDown (q : Port) : Port := if q.st = .down then q else startTraining q

/-- PCS_LOCK: a training port gains PCS lock and sends LINK_INIT (R238). -/
def execPcsLock (p : Nat) (s : State) : Out :=
  onPlace (decide (p < 24))
    (let q := portAt s p
     if q.st ≠ .training ∨ q.initSent = true then s
     else
       let s := sendInit p s
       if (portAt s p).initRx then linkUp p s else s)

/-- The partner has begun a fresh link-up while this side's link stood: the counters are zeroed, frames that were arriving are
cut, this side answers, and the link is up (R238, R246). -/
def relink (p : Nat) (s : State) : State :=
  linkUp p (sendInit p (updPort p (fun q => { linkZero q with ctlExpect := 1, st := .training }) (cutFrom p s)))

/-- The partner's LINK_INIT takes effect; during a retrain it waits for its end (R238, R241, R246). -/
def takeInit (p : Nat) (f : Bytes) (s : State) : State :=
  let q := portAt s p
  let s := updPort p (fun q =>
    { q with partnerId := BitVec.ofNat 64 (fieldB f 8 8), partnerPort := BitVec.ofNat 8 (fieldB f 16 1), initRx := true }) s
  if q.st = .training then
    let s := updPort p (fun q => { q with ctlExpect := 1 }) s
    if q.initSent then linkUp p s else s
  else if q.st = .retraining then s
  else relink p s

/-- LINK_INIT: the partner's frame zeroes sequences and credits, ends CEASED and allows bulk flits (R238, R246). -/
def execLinkInit (p : Nat) (frame : Bytes) (s : State) : Out :=
  onPlace (decide (p < 24)) (receiveControl p 1 frame (takeInit p frame) s)

/-! ## Retrain and DOWN (R241, R426) -/

/-- Retrain, or go DOWN when a retrain completed within the last 10 s (R241). -/
def startRetrain (p : Nat) (s : State) : State :=
  let q := portAt s p
  if (match q.retrained with | some t => decide (nowNs s < t + 10000000000) | none => false) then goDown p s
  else
    logPort 0x0601 p (updPort p (fun q =>
      { q with st := .retraining, back := q.st, window := [],
               cnt := { q.cnt with retrains := satAdd q.cnt.retrains 1 } }) s)

/-- One replay is counted; the ninth within 40 µs starts a retrain (R240, R241). -/
def countReplay (p : Nat) (s : State) : State :=
  let now := nowNs s
  let s := updPort p (fun q =>
    { q with window := now :: (q.window.filter (fun t => decide (now < t + 40000))),
             cnt := { q.cnt with replays := satAdd q.cnt.replays 1 } }) s
  if 9 ≤ (portAt s p).window.length then startRetrain p s else s

/-- Whether the flits of a channel may be sent again: in the safe state those of the control channel alone (R399; log entry
98). -/
def resends (s : State) (ch : Nat) : Bool := !isSafe s || ch == 8

/-- A channel is replayed from a sequence, unless the replay is the one that leads to a retrain (R240, R241). -/
def replay (p ch seq : Nat) (s : State) : State :=
  let s := countReplay p s
  if streams (portAt s p) then updPort p (resend ch seq) s else s

/-- REPLAY_TIMEOUT: the oldest unacknowledged flit of a channel has waited 5 µs, and the channel is replayed (R240); a bulk
lane never in the safe state (R399). -/
def execReplayTimeout (p ch : Nat) (s : State) : Out :=
  onPlace (decide (p < 24) && decide (ch < 9))
    (let q := portAt s p
     match streams q && resends s ch, q.retry.find? (fun f => f.ch == ch) with
     | true, some f => replay p ch f.seq s
     | _, _ => s)

/-- The credit limits of the lanes that have freed flits go out, those freed while the stream stood among them (R242). -/
def announce (q : Port) : Port :=
  ((List.range 8).filter (fun v => (laneAt q v).freed != 0)).foldl
    (fun q v => signal 0 0 0 (some (v, 4096 + (laneAt q v).freed)) q) q

/-- A port's stream runs again after a retrain: the unacknowledged flits are replayed, and the credit limits go out (R241,
R242). -/
def resume (safe : Bool) (q : Port) : Port := announce (resendAll safe q)

/-- A retrain has ended: the port is in the state in which it began. A link-up in progress goes on, and one that the
partner began meanwhile takes place; else every unacknowledged flit is replayed (R238, R241). -/
def retrained (p : Nat) (s : State) : State :=
  let q := portAt s p
  let s := updPort p (fun q => { q with st := q.back, retrained := some (nowNs s) }) s
  if q.back = .training then (if q.initSent ∧ q.initRx then linkUp p s else updPort p (resume (isSafe s)) s)
  else if q.initRx then relink p s
  else pump p (updPort p (resume (isSafe s)) s)

/-- RETRAIN_COMPLETE: the port resumes, and every unacknowledged flit is replayed in order (R241). -/
def execRetrainComplete (p : Nat) (s : State) : Out :=
  onPlace (decide (p < 24)) (if (portAt s p).st = .retraining then retrained p s else s)

/-- PORT_DOWN: a retrain has not completed within 6 ms (R241). -/
def execPortDown (p : Nat) (s : State) : Out :=
  onPlace (decide (p < 24)) (if (portAt s p).st = .retraining then goDown p s else s)

/-- CEASE: the partner ceases; the port sends no further bulk flit, discards the frames that are not whole, and its
descriptors complete with PEER_CEASED (R246, R401). -/
def execCease (p : Nat) (frame : Bytes) (s : State) : Out :=
  onPlace (decide (p < 24))
    (receiveControl p 3 frame (fun s =>
      let q := portAt s p
      if q.st = .up ∨ q.st = .retraining then
        let s := cutFrom p (updPort p (fun q =>
          { q with st := if q.st = .retraining then .retraining else .ceased,
                   back := if q.st = .retraining then .ceased else q.back }) s)
        updPort p (fun q => { q with txq := [] }) (failPort p stPeerCeased (logPort 0x0602 p s))
      else s) s)

/-! ## The credit audit (R243) -/

/-- Difference of two 32-bit counts, signed (R242). -/
def diff32 (a b : Nat) : Int := (BitVec.ofNat 32 a - BitVec.ofNat 32 b).toInt

/-- The receiver's checks of an AUDIT frame (R243). -/
def auditHolds (l : Lane) (fs limit : Nat) : Bool :=
  decide (diff32 limit (4096 + l.freed) ≤ 0) && decide (diff32 fs limit ≤ 0) && (l.occ + l.freed) % 2 ^ 32 == l.fr

/-- Evaluate a waiting audit of a lane once FR has reached its FS (R243). -/
def checkAudit (p v : Nat) (s : State) : State :=
  let l := laneAt (portAt s p) v
  match l.audit with
  | none => s
  | some (fs, limit) =>
    if l.fr ≠ fs then s
    else
      let s := updPort p (fun q => setLane v { laneAt q v with audit := none } q) s
      if auditHolds l fs limit then s else fatal (portFault cCreditAudit p v) s

/-- The AUDIT frame of a lane: FS and the limit it holds (R243, R246). -/
def auditPayload (lane : Nat) (a : Nat × Nat) : Bytes := toLe 1 lane ++ zeros 3 ++ toLe 4 a.1 ++ toLe 4 a.2

/-- AUDIT_SEND: the AUDIT frame that the sender owes since a 65,536th first-sent flit of a lane goes out; FS above the limit
is fatal (R243). -/
def execAuditSend (p lane : Nat) (s : State) : Out :=
  onPlace (decide (p < 24) && decide (lane < 8))
    (match isSafe s, (portAt s p).st, (laneAt (portAt s p) lane).audits with
     | false, .up, a :: rest =>
       let s := updPort p (fun q => setLane lane { laneAt q lane with audits := rest } q) s
       if 0 < diff32 a.1 a.2 then fatal (portFault cCreditAudit p lane) s
       else postControl p 2 (auditPayload lane a) 0 s
     | _, _, _ => s)

/-- AUDIT: the receiver evaluates the frame when FR equals its FS (R243). -/
def execAudit (p : Nat) (frame : Bytes) (s : State) : Out :=
  onPlace (decide (p < 24))
    (receiveControl p 2 frame (fun s =>
      let v := fieldB frame 8 1
      if 8 ≤ v then s
      else
        checkAudit p v (updPort p (fun q =>
          setLane v { laneAt q v with audit := some (fieldB frame 12 4, fieldB frame 16 4) } q) s)) s)

/-! ## Received flits (R235, R237, R239, R245) -/

/-- The header of a flit (R235). -/
def flitHeader (b : Bytes) : Nat := fieldB b 0 12

/-- Whether a flit header has a reserved encoding (R235, R239). -/
def headerReserved (h : Nat) : Bool :=
  let kind := bits h 1 0
  let sof := bits h 9 5
  bits h 95 84 != 0 || kind == 3 || bits h 35 34 == 3 || decide (9 ≤ bits h 39 36) ||
    (kind == 1 && sof == 30) || (kind == 2 && sof != 0) || (kind == 0 && sof != 31) ||
    (kind != 1 && bits h 4 2 != 0) || (kind == 0 && bits h 33 10 != 0)

/-- Whether a received flit is bad (R239). -/
def flitBad (bad : Bool) (b : Bytes) : Bool :=
  bad || fieldB b 252 4 != (crc32c (b.take 252)).toNat || headerReserved (flitHeader b)

/-- An acknowledgement frees the channel's flits up to a sequence (R240). -/
def ackFlits (ch seq : Nat) (p : Port) : Port :=
  { p with retry := p.retry.filter (fun f => !(f.ch == ch && decide ((seq + 2 ^ 24 - f.seq) % 2 ^ 24 < 2 ^ 23))) }

/-- A credit update: the smallest limit not below the current one with the given low bits (R242). -/
def newLimit (old low : Nat) : Nat := (old + (low + 2 ^ 16 - old % 2 ^ 16) % 2 ^ 16) % 2 ^ 32

/-- Acknowledgement and credit of a good flit (R240, R242); in the safe state replay requests are no longer answered
(R399). -/
def takeHeader (p h : Nat) (s : State) : State :=
  let ch := bits h 39 36
  let s := if bit h 67 then
      updPort p (fun q =>
        let v := bits h 66 64
        setLane v { laneAt q v with limit := newLimit (laneAt q v).limit (bits h 83 68) } q) s
    else s
  let s := if bits h 35 34 = 1 then updPort p (ackFlits ch (bits h 63 40)) s else s
  let s := if bits h 35 34 = 2 ∧ isSafe s = false then replay p ch (bits h 63 40) s else s
  pump p s

/-- Cut a lane's stream into frames: whole frames, what is left of an incomplete one, and whether a frame error ended it;
`fuel` bounds the frames (R237, R245). -/
def cutFrames (role vl : Nat) : Nat → Bytes → List Bytes × Bytes × Bool
  | 0, bs => ([], bs, false)
  | n + 1, bs =>
    if bs.isEmpty ∨ fieldB bs 0 1 = 0 then ([], [], false)
    else if bs.length < 32 then ([], bs, false)
    else if frameError role vl (bs.take 32) then ([], [], true)
    else
      let size := 32 + fieldB bs 8 4
      if bs.length < size then ([], bs, false)
      else if fieldB bs 1 1 = 0 ∧ bodyError (bs.take size) = true then ([], [], true)
      else
        let r := cutFrames role vl n (bs.drop size)
        (bs.take size :: r.1, r.2.1, r.2.2)

/-- The body of an accepted bulk flit joins its lane's stream (R237, R245). -/
def takeBody (p v sof : Nat) (body : Bytes) (s : State) : State :=
  let q := portAt s p
  let l := laneAt q v
  if l.skip ∧ sof = 31 then s
  else
    let stream := if l.skip then body.drop (8 * sof) else l.stream ++ body
    let r := cutFrames q.role v 16 stream
    updPort p (fun q =>
      { setLane v { l with stream := r.2.1, skip := r.2.2 } q with
        inbox := q.inbox ++ r.1.map (fun f => { vl := v, bytes := f }),
        cnt := { q.cnt with frameBad := satAdd q.cnt.frameBad (b2n r.2.2) } }) s

/-- A bulk flit with the expected sequence is accepted and acknowledged; it takes a place in the receive buffer until
nothing needs it (R239, R240, R242, R256). No audit runs in the safe state (R408). -/
def acceptBulk (p v h : Nat) (b : Bytes) (s : State) : State :=
  let e := (laneAt (portAt s p) v).expect
  let s := updPort p (fun q =>
    let l := laneAt q v
    signal 1 v e none
      (setLane v { l with expect := (e + 1) % 2 ^ 24, fr := (l.fr + 1) % 2 ^ 32, gapAsked := false, occ := l.occ + 1 } q)) s
  let s := freeLane p v (takeBody p v (bits h 9 5) ((b.drop 12).take 240) s)
  if isSafe s then s else checkAudit p v s

/-- A control flit with the expected sequence is accepted and acknowledged: its five frames (R240, R246). -/
def acceptControl (p : Nat) (b : Bytes) (s : State) : State :=
  let fs := (chunksB 48 5 ((b.drop 12).take 240)).filter (fun f => fieldB f 0 1 != 0)
  let good := fs.filter (fun f => decide (fieldB f 0 1 < 8))
  updPort p (fun q =>
    signal 1 8 q.ctlExpect none
      { q with ctlExpect := (q.ctlExpect + 1) % 2 ^ 24, ctlGap := false,
               inbox := q.inbox ++ good.map (fun f => { vl := 8, bytes := f }),
               cnt := { q.cnt with frameBad := satAdd q.cnt.frameBad (fs.length - good.length) } }) s

/-- A gap: replay of a channel is requested from the expected sequence, once (R239, R240; log entry 33 for the count). -/
def askReplay (p ch e : Nat) (asked : Bool) (mark : Port → Port) (s : State) : State :=
  if asked then s else countReplay p (updPort p (fun q => signal 2 ch e none (mark q)) s)

/-- A good bulk or control flit against the sequence expected (R239). -/
def takeFlit (p : Nat) (b : Bytes) (s : State) : State :=
  let h := flitHeader b
  let v := bits h 4 2
  let q := portAt s p
  let bulk := bits h 1 0 == 1
  let e := if bulk then (laneAt q v).expect else q.ctlExpect
  let d := (bits h 33 10 + 2 ^ 24 - e) % 2 ^ 24
  if d = 0 then (if bulk then acceptBulk p v h b s else acceptControl p b s)
  else if 2 ^ 23 ≤ d then countPort p (fun c => { c with dupFlit := satAdd c.dupFlit 1 }) s
  else if bulk then askReplay p v e (laneAt q v).gapAsked (fun q => setLane v { laneAt q v with gapAsked := true } q) s
  else askReplay p 8 e q.ctlGap (fun q => { q with ctlGap := true }) s

/-- PORT_FLIT: a received flit is checked, accepted, or discarded as bad, duplicate or gap; its acknowledgement and
credit are applied (R239, R240, R242). -/
def execPortFlit (p : Nat) (bytes : Bytes) (badCodeword : Bool) (s : State) : Out :=
  onPlace (decide (p < 24))
    (if streams (portAt s p) = false then s
     else if flitBad badCodeword bytes then countPort p (fun c => { c with flitBad := satAdd c.flitBad 1 }) s
     else
       let s := takeHeader p (flitHeader bytes) s
       if bits (flitHeader bytes) 1 0 = 0 ∨ streams (portAt s p) = false then s else takeFlit p bytes s)

end Sys2Proof.Machine
end

