-- ==== Sys2Proof/Machine/Mailbox.lean ====
section
/-! DEFINITION. The mailbox: result headers, acceptance by state, the standard commands, and the vendor commands that act
on one unit (R31, R337 to R346). A command is judged in the order state, IDE or identity, ranges (log entry 36); a
command that reaches the engine while it has no power or no CXL link changes nothing (log entry 11). -/

namespace Sys2Proof.Machine

/-! ## Answers (R337, R338) -/

/-- Code of a DSTATUS (R338). -/
def dstatusCode : DStatus → Nat
  | .ok => 0
  | .busy => 1
  | .state => 2
  | .check => 3
  | .range => 4
  | .duplicate => 5
  | .full => 6
  | .notIde => 7
  | .noIdentity => 8

/-- Mailbox return code of a DSTATUS (R338). -/
def returnCode : DStatus → Nat
  | .ok => 0
  | .busy => 6
  | _ => 2

/-- A result header (R338). -/
def resultHeader (d : DStatus) (check : Nat) : Bytes := toLe 2 (dstatusCode d) ++ toLe 2 check ++ zeros 4

/-- Put an answer in the mailbox and signal it on MSI-X vector 0 (R337). -/
def putAnswer (rc : Nat) (d : DStatus) (check : Nat) (out : Bytes) (s : State) : State :=
  raiseMsix 0 { s with mbx := { s.mbx with rc := rc, dstatus := d, check := check, out := out } }

/-- The answer of a vendor command: its header, then its output (R338). -/
def reply (d : DStatus) (out : Bytes) (s : State) : State := putAnswer (returnCode d) d 0 (resultHeader d 0 ++ out) s

/-- The mailbox with an accepted background command, which runs beside one that runs already. -/
def Mailbox.begin (b : BgCmd) (m : Mailbox) : Mailbox :=
  if m.bg.isSome then { m with beside := some b } else { m with bg := some b }

/-- The answer of an accepted background command (R338). -/
def started (bg : BgCmd) (s : State) : State :=
  putAnswer 1 .ok 0 (resultHeader .ok 0) { s with mbx := s.mbx.begin bg }

/-- The end of a background command: its result, and MSI-X vector 0 (R337, R338). A command beside it goes on. -/
def finishBg (r : BgResult) (s : State) : State :=
  raiseMsix 0 { s with mbx := { s.mbx with bg := s.mbx.beside, beside := none, bgRes := r } }

/-- The end of a READBACK or ATTEST: of the one that runs beside another command, if there is one. -/
def finishRead (r : BgResult) (s : State) : State :=
  if s.mbx.beside.isSome then raiseMsix 0 { s with mbx := { s.mbx with beside := none, bgRes := r } } else finishBg r s

/-- The background command that a READBACK_DONE or ATTEST_DONE concerns. -/
def Mailbox.reading (m : Mailbox) : Option BgCmd := if m.beside.isSome then m.beside else m.bg

/-- The result of a background command with a DSTATUS. -/
def bgDone (opcode : Nat) (d : DStatus) : BgResult := { BgResult.reset with dstatus := d, opcode := opcode }

/-- The Command register keeps the opcode of the command taken from the doorbell (R337). -/
def takeOpcode (op : Nat) (s : State) : State := { s with mbx := { s.mbx with opcode := op } }

/-- A command of the standard set answers with its payload and no vendor header (R337). -/
def standard (op rc : Nat) (out : Bytes) (s : State) : State :=
  if mailboxUp s then putAnswer rc .ok 0 out (takeOpcode op s) else s

/-- Whether the background command that runs turns no other away: in STATE 9 and 10 END_LEND or WARM_START always runs, and
what R205 and R340 list for these states is accepted beside it, unless a second one runs (log entry 87). -/
def bgOpen (s : State) : Bool :=
  s.mbx.bg.isNone || ((s.dev.st == .scrubbing || s.dev.st == .warmStart) && s.mbx.beside.isNone)

/-- Accept a vendor command in the states of R340, `whileBg` while a background command runs (R339, R340). -/
def vendor (op : Nat) (whileBg : Bool) (states : List DevState) (work : State → State) (s : State) : Out :=
  .next
    (if mailboxUp s = false then s
     else
       let t := takeOpcode op s
       if !bgOpen s && !whileBg then reply .busy [] t
       else if states.contains s.dev.st then work t
       else if [.running, .lender, .scrubbing, .warmStart].contains s.dev.st || s.mbx.bg.isSome then reply .busy [] t
       else reply .state [] t)

/-- Every state. -/
def allStates : List DevState :=
  [.coldStart, .startFailed, .ready, .loadOpen, .resident, .configured, .running, .safe, .lender, .scrubbing, .warmStart,
   .salvage]

/-- States 2 to 11. -/
def startedStates : List DevState :=
  [.ready, .loadOpen, .resident, .configured, .running, .safe, .lender, .scrubbing, .warmStart, .salvage]

/-- States 2, 4, 5 and 6. -/
def workStates : List DevState := [.ready, .resident, .configured, .running]

/-- States 2 to 6, 10 and 11. -/
def listStates : List DevState := [.ready, .loadOpen, .resident, .configured, .running, .warmStart, .salvage]

/-! ## Standard commands (R337) -/

/-- Identify: the payload that CXL 3.1 defines (log entry 14). -/
def execIdentify (s : State) : Out := .next (standard 0x0001 0 Config.identifyPayload s)

/-- Opcode of a background command (R340). -/
def bgOpcode : BgCmd → Nat
  | .verify => 0xC102
  | .configure => 0xC103
  | .relief _ => 0xC104
  | .warmStart => 0xC108
  | .readback _ => 0xC109
  | .attest _ => 0xC10A
  | .endLend => 0xC10D

/-- Background Operation Status: in progress with a percentage that nothing states, or the last operation's return code;
the layout is PRESUMED (log entry 35). -/
def execBackgroundOperationStatus (s : State) : Out :=
  .next
    (match s.mbx.bg with
     | some b =>
       let v := freeVal 7 s
       if mailboxUp s then
         standard 0x0002 0 (toLe 1 (1 + 2 * v.1.toNat) ++ [0] ++ toLe 2 (bgOpcode b) ++ toLe 2 0 ++ toLe 2 0) v.2
       else s
     | none =>
       standard 0x0002 0
         ([0, 0] ++ toLe 2 s.mbx.bgRes.opcode ++ toLe 2 (returnCode s.mbx.bgRes.dstatus) ++ toLe 2 0) s)

/-- Get Event Records: every log of CXL is empty (R337; layout PRESUMED, log entry 35). -/
def execGetEventRecords (s : State) : Out := .next (standard 0x0100 0 (zeros 32) s)

/-- Clear Event Records: every log is empty already (R337). -/
def execClearEventRecords (s : State) : Out := .next (standard 0x0101 0 [] s)

/-- The timestamp now: zero until it is set, then advancing (log entry 35). -/
def timestampNow (s : State) : W64 :=
  if s.cxl.timestamp = 0 then 0 else s.cxl.timestamp + BitVec.ofNat 64 (nowNs s - s.cxl.timestampAt)

/-- Get Timestamp (R337). -/
def execGetTimestamp (s : State) : Out := .next (standard 0x0300 0 (toLe 8 (timestampNow s).toNat) s)

/-- Set Timestamp: kept, and never used for hall time (R337). -/
def execSetTimestamp (t : W64) (s : State) : Out :=
  .next
    (if mailboxUp s then
       standard 0x0301 0 [] { s with cxl := { s.cxl with timestamp := t, timestampAt := nowNs s } }
     else s)

/-- Get Supported Logs: the command effects log only (R337; log entry 14). -/
def execGetSupportedLogs (s : State) : Out := .next (standard 0x0400 0 Config.supportedLogs s)

/-- Get Log: bytes of the command effects log; another log, or a range beyond it, is Invalid Input (R337; log entries 14,
35). -/
def execGetLog (place : LogPlace) (len : Nat) (s : State) : Out :=
  .next
    (match place with
     | .effects off =>
       if off + len ≤ Config.effectsLog.length then standard 0x0401 0 (sliceB Config.effectsLog off len) s
       else standard 0x0401 2 [] s
     | .other _ => standard 0x0401 2 [] s)

/-- Identify Memory Device: 65,792 × 256 MiB total and volatile, no persistent capacity (R337); the places of the
capacities are PRESUMED (log entry 35). -/
def execIdentifyMemoryDevice (s : State) : Out :=
  .next
    (standard 0x4000 0
      ((List.range 16).map Config.memIdentifyByte ++ toLe 8 65792 ++ toLe 8 65792 ++ toLe 8 0 ++
        (List.range 29).map (fun i => Config.memIdentifyByte (40 + i))) s)

/-- Every other standard opcode and 0xC11A to 0xC1FF return Unsupported (R337, R338). -/
def execUnsupported (opcode : BitVec 16) (s : State) : Out :=
  .next
    (if mailboxUp s then
       putAnswer 3 .ok 0 (if 0xC11A ≤ opcode.toNat ∧ opcode.toNat ≤ 0xC1FF then resultHeader .ok 0 else [])
         (takeOpcode opcode.toNat s)
     else s)

/-! ## The merged map (R26, R28, R31) -/

/-- Bytes of module flash (R349). -/
def flashRead (s : State) (off n : Nat) : Bytes := Mem.span 0xFF s.flash off n

/-- Flash offset of the factory defect map (R349). -/
def factoryAt : Nat := 0x40000

/-- Code of a position in the merged map (R28). -/
def positionCode (s : State) (i : Nat) : Nat :=
  if isCluster i then (if isGood s i then 1 else (Tab.get 0 s.map.marks i).toNat) else 0

/-- The merged-map record (R31). -/
def mergedRecord (s : State) : Bytes :=
  ascii "PLYM" ++ flashRead s (factoryAt + 4) 4 ++ toLe 4 (goodCount s) ++ toLe 4 s.map.lanes.length ++
    flashRead s (factoryAt + 0x10) 48 ++
    (List.range 17600).map (fun i =>
      BitVec.ofNat 8 (positionCode s (4 * i) + 4 * positionCode s (4 * i + 1) + 16 * positionCode s (4 * i + 2) +
        64 * positionCode s (4 * i + 3))) ++
    s.map.lanes.flatMap (fun e => toLe 4 e.toNat)

/-- MAP_READ: the merged-map record (R31, R340). -/
def execMapRead (s : State) : Out := vendor 0xC100 true startedStates (fun s => reply .ok (mergedRecord s) s) s

/-! ## Freeze and guard -/

/-- FREEZE: the safe state with cause HOST_FREEZE; a background command it stops ends with STATE (R339, R340). -/
def execFreeze (s : State) : Out :=
  vendor 0xC107 true [.loadOpen, .resident, .configured, .running, .warmStart] (fun s =>
    fatal { cause := cHostFreeze, place := 0, loc := 0, detail := 0 } (reply .ok [] s)) s

/-- SHADOW_GUARD: bit 0 SET (R340, R343). -/
def execShadowGuard (pl : Bytes) (s : State) : Out :=
  vendor 0xC10E false [.ready, .resident, .configured] (fun s =>
    let b := fieldB pl 0 1
    if 2 ≤ b then reply .range [] s
    else reply .ok [] { s with dev := { s.dev with guard := b == 1 } }) s

/-! ## Quota (R215, R340) -/

/-- The largest LIMIT of a T1 account (R215). -/
def allSlots : Nat := 67600496

/-- The answer to a SET_QUOTA: ranges and reserved fields, LIMIT not below USED, HOSTACC not in a run, no other home while
USED is above zero (R215; log entry 39). -/
def quotaStatus (s : State) (pl : Bytes) : DStatus :=
  let tier := fieldB pl 0 1
  let a := fieldB pl 1 1
  let fl := fieldB pl 2 1
  let limit := fieldB pl 8 8
  let x := acctAt s tier a
  if tier = 0 ∨ 3 < tier ∨ 63 < a ∨ 16 ≤ fl ∨ zeroB pl 3 5 = false ∨ zeroB pl 17 7 = false then .range
  else if bit fl 1 = true ∧ (limit < x.used ∨ (tier = 1 ∧ allSlots < limit)) then .range
  else if bit fl 3 = true ∧ (23 < fieldB pl 16 1 ∨ (tier = 1 ∧ (fieldB pl 16 1 ≠ 0 ∨ fieldB pl 24 8 ≠ 0))) then .range
  else if bit fl 2 = true ∧ inRun s = true ∧ bit fl 0 ≠ x.hostAcc then .busy
  else if bit fl 3 = true ∧ 0 < x.used ∧ (fieldB pl 16 1 ≠ x.bundle ∨ fieldB pl 24 8 ≠ x.base) then .state
  else .ok

/-- An account with the named fields set. -/
def setQuota (pl : Bytes) (x : Account) : Account :=
  let fl := fieldB pl 2 1
  { x with limit := if bit fl 1 then fieldB pl 8 8 else x.limit,
           hostAcc := if bit fl 2 then bit fl 0 else x.hostAcc,
           bundle := if bit fl 3 then fieldB pl 16 1 else x.bundle,
           base := if bit fl 3 then fieldB pl 24 8 else x.base }

/-- SET_QUOTA: the named fields of one account (R215, R340). -/
def execSetQuota (pl : Bytes) (s : State) : Out :=
  vendor 0xC10F false listStates (fun s =>
    match quotaStatus s pl with
    | .ok =>
      let k := acctKey (fieldB pl 0 1) (fieldB pl 1 1)
      reply .ok [] { s with tier := { s.tier with accts := Tab.upd Account.reset s.tier.accts k (setQuota pl) } }
    | d => reply d [] s) s

end Sys2Proof.Machine
end

