-- ==== Sys2Proof/Machine/Frames.lean ====
section
/-! DEFINITION. The frames that ports receive (R228, R245, R246, R254, R256, R272, R278): tiles, markers, digests, shard
requests, home reads and writes, and the waiting judgements and checks of the ring dies. -/

namespace Sys2Proof.Machine

/-- TILE: a tile frame is judged at its sluice once its header has arrived, and ends once it is whole (R245, R254). A sealed
frame is judged when it is whole, as its tile header is known only then (R249). -/
def execTile (p vl : Nat) (frame : Bytes) (s : State) : Out :=
  onPlace (decide (p < 24) && decide (vl < 8))
    (if fieldB frame 1 1 ≠ 0 ∧ frame.length < 32 + fieldB frame 8 4 then s
     else receiveBulk p vl 1 frame (fun f => inOrder (fun s => tileArrives (sluiceOwner s (p / 2) (fIndex f)) p vl f s)) s)

/-- MARKER: a marker frame is judged at its marker sluice (R246, R254). -/
def execMarker (p : Nat) (frame : Bytes) (s : State) : Out :=
  onPlace (decide (p < 24))
    (receiveControl p 4 frame (fun s => judgeMarker (sluiceOwner s (p / 2) (fieldB frame 8 2 % 32768)) p frame s) s)

/-- DIGEST: a received digest is filed in the port's digest ring (R246, R265). -/
def execDigest (p : Nat) (frame : Bytes) (s : State) : Out :=
  onPlace (decide (p < 24))
    (receiveControl p 5 frame (fun s =>
      updPort p (fun q =>
        { q with digRing := Tab.set [] q.digRing (q.digCount % 32) (sliceB frame 8 40), digCount := q.digCount + 1 }) s) s)

/-! ## Waiting judgements (R256) -/

/-- Whether the reservation that a frame waits for can be made now, or is needed no more (R256). -/
def canReserve (s : State) (d : Nat) (f : Stalled) : Bool :=
  match if f.vl = 8 then markerJudgement d f.bytes s else judgement d f.bytes s with
  | .wait => false
  | _ => true

/-- LANDING_BUFFER_RESERVE: the first frame whose reservation can be made is judged as its sluice stands now (R256). -/
def execLandingBufferReserve (d : Nat) (s : State) : Out :=
  onPlace (decide (d < 12))
    (if isSafe s then s
     else
       match (ringAt s d).stalled.find? (canReserve s d) with
       | none => s
       | some f =>
         inOrder (fun s =>
           let s := updRing d (fun r => { r with stalled := removeFirst (fun x => x == f) r.stalled }) s
           freeLane f.port f.vl
             (if f.vl = 8 then judgeMarker d f.port f.bytes s else judgeTile 0 d f.port f.vl f.bytes s)) s)

/-! ## Shard requests and checks (R272, R274, R278) -/

/-- A shard request from its frame (R274). -/
def reqOf (p : Nat) (f : Bytes) : ShardReq :=
  let b := fBody f
  { port := p, sluice := fIndex f, version := fieldB f 16 6, tid := BitVec.ofNat 32 (fieldB b 0 4), first := fieldB b 4 4,
    ntiles := fieldB b 8 4, served := false, left := [] }

/-- SHARD_REQ: answered from the sluice, held, or discarded; a request for no tile is answered with nothing (R274,
R278). -/
def execShardReq (p vl : Nat) (frame : Bytes) (s : State) : Out :=
  onPlace (decide (p < 24) && decide (vl < 8))
    (receiveBulk p vl 5 frame (fun f => inOrder (fun s =>
      if (reqOf p f).ntiles = 0 then s else examineReq (sluiceOwner s (p / 2) (fIndex f)) s (reqOf p f))) s)

/-- SHARD_CHECK: a free lane of a ring die takes the next complete shard (R272); never in the safe state (R399). -/
def execShardCheck (d : Nat) (s : State) : Out :=
  onPlace (decide (d < 12))
    (inOrder (fun s =>
      match isSafe s, (ringAt s d).checks with
      | false, idx :: _ => runCheck d idx s
      | _, _ => s) s)

/-! ## Lender mode (R228) -/

/-- The lent slot of a flat index that a port of the lender session may reach; none outside the lent range. -/
def lentSlot (s : State) (p flat : Nat) : Option (Nat × Nat) :=
  match s.tier.lend with
  | some l =>
    if s.dev.st = .lender ∧ bit l.ports p = true ∧ l.first ≤ flat ∧ flat < l.first + l.count then
      some (flat / slotsPerStack, flat % slotsPerStack)
    else none
  | none => none

/-- A lender access outside the lent range is discarded and counted in TIER_POISON (R228, R230). -/
def countDrop (s : State) : State := { s with tier := { s.tier with drops := satAdd s.tier.drops 1 } }

/-- Whether the engine serves borrowers on a port. -/
def lends (s : State) (p : Nat) : Bool := s.dev.st == .lender && (s.tier.lend).any (fun l => bit l.ports p)

/-- One tile of a borrower's read (R245); an uncorrectable slot is fatal (log entry 34). -/
def serveHome (p id : Nat) (s : State) (x : Nat × Nat) : State :=
  match lentSlot s p x.2 with
  | none => if lends s p then countDrop s else s
  | some (n, slot) =>
    let r := readStack (slotKey n slot) slotSize s
    if r.2.1 then fatal (stackFault cEccUncorr n slot) r.2.2
    else postBulk p 0 (bulkFrame (portAt s p) 4 id x.1 (frameOfSlot r.1)) 0 r.2.2

/-- HOME_READ: a lender serves the tiles at the asked home indices as HOME_DATA frames on the same port (R228, R245);
an engine that does not lend on the port gives no answer. -/
def execHomeRead (p vl : Nat) (frame : Bytes) (s : State) : Out :=
  onPlace (decide (p < 24) && decide (vl < 8))
    (receiveBulk p vl 3 frame (fun f s =>
      let b := fBody f
      ((List.range (fieldB f 12 2)).map (fun i => (i, fieldB f 16 6 + i * fieldB b 4 2))).foldl
        (serveHome p (fieldB b 0 4)) s) s)

/-- HOME_WRITE: a lender writes the frame into its lent slot (R228, R245); bytes beyond the slot are dropped (log entry
89). -/
def execHomeWrite (p vl : Nat) (frame : Bytes) (s : State) : Out :=
  onPlace (decide (p < 24) && decide (vl < 8))
    (receiveBulk p vl 2 frame (fun f s =>
      match lentSlot s p (fieldB f 16 6) with
      | some (n, slot) => writeStack (slotKey n slot) ((slotOfFrame (fBody f)).take slotSize) s
      | none => if lends s p then countDrop s else s) s)

end Sys2Proof.Machine
end

