-- ==== Sys2Proof/Machine/Tier.lean ====
section
/-! DEFINITION. The tier engine: quota accounts and their audit, list queues, and the migration operations (R214 to
R220, R228). A unit's home read or write is the traffic of a one-tile descriptor on queue 1,023, and its outcome comes
with the command (log entry 29). The checks of a unit are made in the order range, ownership, precondition, quota (log
entry 30). -/

namespace Sys2Proof.Machine

/-! ## Accounts (R215, R216) -/

/-- Change a quota account. -/
def updAcct (tier a : Nat) (f : Account → Account) (s : State) : State :=
  { s with tier := { s.tier with accts := Tab.upd Account.reset s.tier.accts (acctKey tier a) f } }

/-- One unit more in an account. -/
def useAcct (tier a : Nat) : State → State := updAcct tier a (fun x => { x with used := x.used + 1 })

/-- One unit less in an account. -/
def freeAcct (tier a : Nat) : State → State := updAcct tier a (fun x => { x with used := x.used - 1 })

/-- The audit of R216. -/
def auditOk (s : State) : Bool :=
  ((s.tier.accts.filter (fun e => decide (e.1 < 64))).map (fun e => e.2.used)).foldl (· + ·) 0 == s.tier.inUse &&
    s.tier.accts.all (fun e => decide (e.2.used ≤ e.2.limit))

/-- Make the audit; a failure is fatal (R216, R335). -/
def audit (s : State) : State :=
  if auditOk s then s else fatal { cause := cTierAudit, place := atTier, loc := 0, detail := 0 } s

/-- A unit takes a slot and counts in its account (R216, R218). -/
def occupy (u stack slot acct : Nat) (s : State) : State :=
  let s := useAcct 1 acct (updMap u (fun e => { e with res := true, stack := stack, slot := slot, acct := acct }) s)
  { s with tier := { s.tier with inUse := s.tier.inUse + 1 } }

/-- A unit leaves its slot: RES := 0 (R218). -/
def vacate (u : Nat) (s : State) : State :=
  let s := freeAcct 1 (mapAt s u).acct (updMap u (fun e => { e with res := false }) s)
  { s with tier := { s.tier with inUse := s.tier.inUse - 1 } }

/-! ## List queues (R217, R219, R231) -/

/-- A list queue. -/
def migQueue (host : Bool) (s : State) : List MigInst := if host then s.tier.hostQ else s.tier.manQ

/-- Put a list queue back. -/
def setMigQueue (host : Bool) (q : List MigInst) (s : State) : State :=
  if host then { s with tier := { s.tier with hostQ := q } } else { s with tier := { s.tier with manQ := q } }

/-- Record how an instance ended (R217, R231). -/
def setRec (l : Nat) (r : ListRec) (s : State) : State :=
  { s with tier := { s.tier with recs := Tab.set ListRec.reset s.tier.recs l r } }

/-- What an instance shows before its end: executing at the head of its queue, queued behind it (R217, R219). -/
def instRec (head : Bool) (m : MigInst) : ListRec :=
  { st := if head then .executing else .queued, next := m.next, cause := 0, unit := 0 }

/-- The record of a list (R217, R231): its oldest live instance, else how the last one ended. -/
def listRec (s : State) (l : Nat) : ListRec :=
  let q := if l < 32768 then s.tier.manQ else s.tier.hostQ
  match q.zipIdx.find? (fun x => x.1.list == l) with
  | some x => instRec (x.2 == 0) x.1
  | none => Tab.get ListRec.reset s.tier.recs l

/-- An instance past its entries without units and its completed units (R218). -/
def skipEmpty : Nat → List MigEntry → Nat × List MigEntry
  | n, [] => (n, [])
  | n, e :: es => if e.count = 0 then skipEmpty (n + 1) es else (n, e :: es)

/-- Complete the instances at the head of a queue that have no work left (R217, R219). -/
def settleQueue (host : Bool) : List MigInst → State → State
  | [], s => setMigQueue host [] s
  | m :: ms, s =>
    let k := if m.done = 0 then skipEmpty m.next m.entries else (m.next, m.entries)
    if k.2.isEmpty then
      settleQueue host ms (audit (setRec m.list { st := .complete, next := k.1, cause := 0, unit := 0 } s))
    else setMigQueue host ({ m with next := k.1, entries := k.2 } :: ms) s

/-- Start an instance of a list: it goes behind its queue; a list with N = 0 is complete when it starts (R217). -/
def startMig (host : Bool) (l : Nat) (es : List MigEntry) (s : State) : State :=
  if es.isEmpty then audit (setRec l { st := .complete, next := 0, cause := 0, unit := 0 } s)
  else settleQueue host (migQueue host s ++ [{ list := l, next := 0, done := 0, entries := es, thisRun := true, tries := 0 }]) s

/-- Whether a MIGRATE condition holds: for a manifest list the instance of this run, for a host list its last posting
(R162, R217). -/
def migrateHolds (s : State) (l : Nat) : Bool :=
  if l < 32768 then
    (match s.tier.migs.find? (fun m => m.list == l) with
     | some m => weirReleased s m.startWeir && !s.tier.manQ.any (fun i => i.list == l && i.thisRun)
     | none => false)
  else (Tab.get ListRec.reset s.tier.recs l).st == .complete && !s.tier.hostQ.any (fun i => i.list == l)

/-! ## One unit (R218, R220) -/

/-- Why a unit fails (R220, R340). -/
inductive TierErr where
  | precond | quota | remote | ownership | range
  | ecc (stack : Nat) (address : Nat)
deriving DecidableEq, Repr

/-- Cause code of MIG_STATUS (R340). -/
def causeCode : TierErr → Nat
  | .precond => 1
  | .quota => 2
  | .remote => 3
  | .ownership => 4
  | .range => 5
  | .ecc _ _ => 6

/-- The outcome of a unit's operation: done, failed, or its home read is to be made again (R218, R259). -/
inductive UnitRes where
  | done (s : State)
  | failed (err : TierErr) (s : State)
  | again (s : State)

/-- A unit being operated on: its entry, its number in it, and its map entry. -/
structure UnitOp where
  e : MigEntry
  i : Nat
  m : MapEntry
deriving DecidableEq, Repr

/-- Unit number. -/
def UnitOp.unit (o : UnitOp) : Nat := o.e.unit + o.i
/-- Target stack. -/
def UnitOp.stack (o : UnitOp) : Nat := bits o.e.loc 26 23
/-- Target slot. -/
def UnitOp.slot (o : UnitOp) : Nat := bits o.e.loc 22 0 + o.i
/-- Whether the operation names a target slot. -/
def UnitOp.slots (o : UnitOp) : Bool := [1, 5, 6].contains o.e.op
/-- Whether it binds a home. -/
def UnitOp.binds (o : UnitOp) : Bool := o.e.op == 7

/-- Whether the unit, slot or home index exists (R218). -/
def UnitOp.named (o : UnitOp) : Bool :=
  decide (o.unit < 2 ^ 29) && (!o.slots || decide (o.slot < slotsPerStack)) &&
    (!o.binds || decide (o.e.loc + o.i < 2 ^ 48))

/-- The accounts that the operation reads or sets, as tier and number: the T1 account of a resident unit and the home account
of a homed one, whatever the operation does with the home, and the accounts that the entry names (DESIGN CHOICE, log entry
104). -/
def UnitOp.accts (o : UnitOp) : List (Nat × Nat) :=
  (if o.m.res then [(1, o.m.acct)] else []) ++ (if o.m.htier ≠ 0 then [(o.m.htier, o.m.hacct)] else []) ++
    (if o.slots then [(1, o.e.acct)] else []) ++ (if o.binds then [(o.e.htier, o.e.acct)] else [])

/-- The ownership rule of R220 during a run. -/
def UnitOp.owned (o : UnitOp) (host : Bool) (s : State) : Bool :=
  !inRun s || o.accts.all (fun a => (acctAt s a.1 a.2).hostAcc == host)

/-- The precondition of R218, and the lists that hold a unit back (R220). -/
def UnitOp.pre (o : UnitOp) (s : State) : Bool :=
  let free := !slotTaken s o.stack o.slot
  let held := stageLocks s o.unit
  let home := o.m.htier != 0
  match o.e.op with
  | 1 => home && !o.m.res && free
  | 2 => o.m.res && home && !held
  | 3 => o.m.res && home
  | 4 => o.m.res && !held
  | 5 => !o.m.res && free
  | 6 => o.m.res && free && !held
  | 7 => !o.m.res || !o.m.dirty
  | 8 => !o.m.dirty
  | _ => false

/-- The account that gains a unit, if one does. -/
def UnitOp.gains (o : UnitOp) : Option (Nat × Nat) :=
  if o.e.op = 1 ∨ o.e.op = 5 ∨ (o.e.op = 6 ∧ o.e.acct ≠ o.m.acct) then some (1, o.e.acct)
  else if o.binds = true ∧ (o.m.htier, o.m.hacct) ≠ (o.e.htier, o.e.acct) then some (o.e.htier, o.e.acct)
  else none

/-- Whether the account that gains a unit stays within LIMIT (R218). -/
def UnitOp.within (o : UnitOp) (s : State) : Bool :=
  match o.gains with
  | some a => decide ((acctAt s a.1 a.2).used + 1 ≤ (acctAt s a.1 a.2).limit)
  | none => true

/-- The first check that a unit fails (R218, R220). -/
def UnitOp.bar (o : UnitOp) (host : Bool) (s : State) : Option TierErr :=
  if o.named = false then some .range
  else if o.owned host s = false then some .ownership
  else if o.pre s = false then some .precond
  else if o.within s = false then some .quota
  else none

/-! ## Home traffic (R218, R259) -/

/-- The lead port of the home account's bundle, when it can carry traffic. -/
def homePort (s : State) (o : UnitOp) : Option Nat :=
  match memberPort s (acctAt s o.m.htier o.m.hacct).bundle 0 with
  | some p => if (portAt s p).st = .up ∨ (portAt s p).st = .retraining then some p else none
  | none => none

/-- Remote tile index of the unit's home. -/
def homeIndex (s : State) (o : UnitOp) : Nat := o.m.loc + (acctAt s o.m.htier o.m.hacct).base

/-- A descriptor of the tier engine starts and completes on queue 1,023 of a port (R259); its entry goes to the tier engine
itself, as the queue has no ring in memory, and the audit of R407 follows (log entry 86). -/
def countTierDesc (p : Nat) (s : State) : State :=
  auditQueue (p * 1024 + 1023) (updQueue (p * 1024 + 1023) (fun q =>
    { q with started := q.started + 1, completions := q.completions + 1, entries := q.entries + 1 }) s)

/-- Ask for a unit's home frame (R245, R259). -/
def askHome (p : Nat) (o : UnitOp) (s : State) : State :=
  let id := s.readIds
  postBulk p 6 (bulkFrame (portAt s p) 3 1 (homeIndex s o) (toLe 4 id ++ toLe 2 1 ++ zeros 2)) 0
    { s with readIds := (id + 1) % 2 ^ 32 }

/-- Send a unit's frame home (R245, R259). -/
def sendHome (p : Nat) (o : UnitOp) (t : Bytes) (s : State) : State :=
  countTierDesc p (postBulk p 0 (bulkFrame (portAt s p) 2 0 (homeIndex s o) t) 0 s)

/-- Physical address of the first uncorrectable granule of a slot. -/
def badAddress (s : State) (stack slot : Nat) : Nat :=
  match s.stackUpsets.find? (fun e => e.2 == 2 && decide (slotKey stack slot / 16 ≤ e.1) &&
      decide (e.1 < slotKey stack slot / 16 + slotSize / 16)) with
  | some e => e.1 * 16 % 2 ^ 37
  | none => slotSize * slot

/-- Write a dirty unit home; a clean one needs nothing (R218). -/
def writeHome (acked : Bool) (o : UnitOp) (s : State) : UnitRes :=
  if o.m.dirty = false then .done s
  else
    let r := readUnit o.unit s
    if r.2.1 then .failed (.ecc o.m.stack (badAddress s o.m.stack o.m.slot)) r.2.2
    else
      match homePort s o with
      | none => .failed .remote r.2.2
      | some p => if acked then .done (sendHome p o r.1 r.2.2) else .failed .remote (sendHome p o r.1 r.2.2)

/-- What follows a unit's operation once it is done. -/
def UnitRes.andThen (r : UnitRes) (f : State → State) : UnitRes :=
  match r with
  | .done s => .done (f s)
  | x => x

/-! ## The operations (R218) -/

/-- FETCH of one unit: its home frame is asked for, and asked for again while its CRC fails, three times at most (R218,
R259). -/
def fetchUnit (home : Option Bytes) (tries : Nat) (o : UnitOp) (s : State) : UnitRes :=
  match homePort s o with
  | none => .failed .remote s
  | some p =>
    let s := askHome p o s
    match home with
    | none => .failed .remote (countTierDesc p s)
    | some t =>
      if tileGood t then
        .done (updMap o.unit (fun e => { e with dirty := false })
          (occupy o.unit o.stack o.slot o.e.acct (writeStack (slotKey o.stack o.slot) (slotOfFrame t) (countTierDesc p s))))
      else if tries < 3 then .again s
      else .failed .remote (countTierDesc p s)

/-- EVICT of one unit. -/
def evictUnit (acked : Bool) (o : UnitOp) (s : State) : UnitRes :=
  (writeHome acked o s).andThen (vacate o.unit)

/-- WRITEBACK of one unit. -/
def writebackUnit (acked : Bool) (o : UnitOp) (s : State) : UnitRes :=
  (writeHome acked o s).andThen (updMap o.unit (fun e => { e with dirty := false }))

/-- DROP of one unit. -/
def dropUnit (o : UnitOp) (s : State) : UnitRes := .done (vacate o.unit s)

/-- ALLOC of one unit. -/
def allocUnit (o : UnitOp) (s : State) : UnitRes :=
  .done (updMap o.unit (fun e => { e with dirty := false })
    (occupy o.unit o.stack o.slot o.e.acct (writeStack (slotKey o.stack o.slot) (zeros slotSize) s)))

/-- MOVE of one unit. -/
def moveUnit (o : UnitOp) (s : State) : UnitRes :=
  let r := readStack (slotKey o.m.stack o.m.slot) slotSize s
  if r.2.1 then .failed (.ecc o.m.stack (badAddress s o.m.stack o.m.slot)) r.2.2
  else .done (occupy o.unit o.stack o.slot o.e.acct (vacate o.unit (writeStack (slotKey o.stack o.slot) r.1 r.2.2)))

/-- UNBIND of one unit. -/
def unbindUnit (o : UnitOp) (s : State) : UnitRes :=
  let s := if o.m.htier = 0 then s else freeAcct o.m.htier o.m.hacct s
  .done (updMap o.unit (fun e => { e with htier := 0, hacct := 0, loc := 0 }) s)

/-- BIND of one unit. -/
def bindUnit (o : UnitOp) (s : State) : UnitRes :=
  let s := if o.m.htier = 0 then s else freeAcct o.m.htier o.m.hacct s
  .done (useAcct o.e.htier o.e.acct
    (updMap o.unit (fun e => { e with htier := o.e.htier, hacct := o.e.acct, loc := o.e.loc + o.i }) s))

/-- A unit is done: its list advances, and is complete with its last entry (R219). -/
def unitDone (host : Bool) (s : State) : State :=
  match migQueue host s with
  | [] => s
  | m :: ms =>
    let m := match m.entries with
      | [] => m
      | e :: es => if m.done + 1 < e.count then { m with done := m.done + 1, tries := 0 }
                   else { m with done := 0, next := m.next + 1, entries := es, tries := 0 }
    settleQueue host (m :: ms) { s with tier := { s.tier with served := some host } }

/-- A home read is to be made again: the unit stays in hand, with one failed answer more (R218, R259). -/
def unitAgain (host : Bool) (s : State) : State :=
  match migQueue host s with
  | [] => s
  | m :: ms => setMigQueue host ({ m with tries := m.tries + 1 } :: ms) s

/-- A unit fails: fatal for a manifest list; a host list stops with the cause (R209, R220). -/
def unitFails (host : Bool) (m : MigInst) (unit : Nat) (err : TierErr) (s : State) : State :=
  if host then
    let s := match err with
      | .ecc stack a => logEvent 0x0206 0 atStack stack (toLe 1 stack ++ toLe 8 a) s
      | _ => s
    settleQueue true ((migQueue true s).drop 1)
      (setRec m.list { st := .stopped, next := m.next, cause := causeCode err, unit := unit }
        { s with tier := { s.tier with served := some true } })
  else
    match err with
    | .ecc stack _ => fatal (stackFault cEccUncorr stack unit) s
    | .ownership => fatal { cause := cTierOwnership, place := atTier, loc := m.list, detail := m.next * 2 ^ 32 + unit } s
    | _ => fatal { cause := cTierList, place := atTier, loc := m.list, detail := m.next * 2 ^ 32 + unit } s

/-- Whether the tier engine works on a queue: not in the safe state, not while lending, and in salvage on the host's lists
alone (R220, R228, R360, R399, R408). -/
def tierWorks (host : Bool) (s : State) : Bool :=
  !(s.dev.st == .safe || s.dev.st == .lender || s.dev.st == .scrubbing || s.dev.st == .coldStart || s.dev.st == .startFailed) &&
    (host || s.dev.st != .salvage)

/-- Whether the unit at the head of a queue is in hand: its home read is being repeated. -/
def inHand (q : List MigInst) : Bool := (q.head?).any (fun m => m.tries != 0)

/-- Whether a queue may be served: the two alternate, one unit at a time, while both hold work that may be done (R219). -/
def turnOf (host : Bool) (s : State) : Bool :=
  tierWorks (!host) s == false || !inHand (migQueue (!host) s) && ((migQueue (!host) s).isEmpty || s.tier.served != some host || inHand (migQueue host s))

/-- One unit of the operation at the head of a list queue, after the extraction writes that have started (R218 to R220,
R224); `work` has the failed answers so far. -/
def tierStep (op : Nat) (host : Bool) (work : Nat → UnitOp → State → UnitRes) (s : State) : State :=
  let s := applyWrites s
  match migQueue host s with
  | [] => s
  | m :: _ =>
    match m.entries with
    | [] => s
    | e :: _ =>
      if e.op ≠ op ∨ turnOf host s = false ∨ tierWorks host s = false then s
      else
        let o : UnitOp := { e := e, i := m.done, m := mapAt s (e.unit + m.done) }
        match o.bar host s with
        | some err => unitFails host m o.unit err s
        | none =>
          match work m.tries o s with
          | .done s => unitDone host s
          | .failed err s => unitFails host m o.unit err s
          | .again s => unitAgain host s

/-- FETCH: one home read of the unit. The answer comes with the command: the frame, or none when the remote transfer fails
(R218, R259). -/
def execFetch (host : Bool) (home : Option Bytes) (s : State) : Out := .next (tierStep 1 host (fetchUnit home) s)

/-- EVICT: a dirty unit goes home, acknowledged or not; its slot is freed (R218). -/
def execEvict (host acked : Bool) (s : State) : Out := .next (tierStep 2 host (fun _ => evictUnit acked) s)

/-- WRITEBACK: a dirty unit goes home; DIRTY is cleared (R218). -/
def execWriteback (host acked : Bool) (s : State) : Out := .next (tierStep 3 host (fun _ => writebackUnit acked) s)

/-- DROP: the slot is freed without writing home (R218). -/
def execDrop (host : Bool) (s : State) : Out := .next (tierStep 4 host (fun _ => dropUnit) s)

/-- ALLOC: zeros are written to a free slot and the unit becomes resident (R218). -/
def execAlloc (host : Bool) (s : State) : Out := .next (tierStep 5 host (fun _ => allocUnit) s)

/-- MOVE: a resident unit moves to a free slot (R218). -/
def execMove (host : Bool) (s : State) : Out := .next (tierStep 6 host (fun _ => moveUnit) s)

/-- BIND: the unit's home is set (R218). -/
def execBind (host : Bool) (s : State) : Out := .next (tierStep 7 host (fun _ => bindUnit) s)

/-- UNBIND: the unit's home is cleared (R218). -/
def execUnbind (host : Bool) (s : State) : Out := .next (tierStep 8 host (fun _ => unbindUnit) s)

end Sys2Proof.Machine
end

