-- ==== Sys2Proof/Machine/Release.lean ====
section
/-! DEFINITION. The weir controller: the weir awaited, what completes it, the conditions it latches (R162, R163, R169), and
a release with all that follows from it in its lc (R97, R145, R154, R164, R166, R181, R217, R222, R253). -/

namespace Sys2Proof.Machine

/-- Change the weir controller. -/
def updWeir (f : WeirCtl → WeirCtl) (s : State) : State := { s with weir := f s.weir }

/-- A fault attributed to the weir controller (R335). -/
def weirFault (cause detail : Nat) : FaultRec := { cause := cause, place := atWeir, loc := 0, detail := detail }

/-- The weir awaited, while a run is in progress (R158). -/
def awaited (s : State) : Option WeirEntry := if inRun s then weirAt s s.weir.await else none

/-- Whether the awaited weir can still gather messages and conditions: a run is in progress and no deadline has expired.
It gathers from the release of the weir before it on (R152, R163). -/
def gathers (s : State) : Bool := s.weir.phase != .noRun && s.weir.phase != .expired

/-! ## What completed last (R166) -/

/-- Place of the participants in the order of R166. -/
def rankArrival : Nat := 0
/-- Place of one of the weir's own conditions. -/
def rankOwn (i : Nat) : Nat := 1 + i
/-- Place of a deferred condition, by its place in the preceding weir's CONDS list. -/
def rankDeferred (i : Nat) : Nat := 100 + i
/-- Place of the steward decision. -/
def rankDecision : Nat := 1000

/-- Note that an event has completed in the current lc (R166). -/
def noteLast (rank last index : Nat) (s : State) : State :=
  let w := s.weir
  if w.lastLc < s.lc ∨ rank < w.lastRank then
    { s with weir := { w with last := last, lastIndex := index, lastLc := s.lc, lastRank := rank } }
  else s

/-! ## Conditions (R162, R163, R169) -/

/-- Whether the unit named by a condition reports it as holding; `w` is the weir whose HOST command counts (R162). -/
def condHolds (s : State) (w : Nat) (c : Cond) : Bool :=
  match c.kind with
  | 1 => (sluiceAt s c.obj).st == .complete
  | 2 => tqHolds s c.obj (BitVec.ofNat 32 c.arg)
  | 3 => stagedHolds s (c.obj / 65536) (c.obj % 65536)
  | 4 => migrateHolds s c.obj
  | 5 => commitHolds s c.obj
  | 6 => s.weir.hostRecs.contains w
  | 7 => decide (s.runBlk.startTime ≤ nowNs s)
  | _ => false

/-- The conditions of a weir that are not latched, by index. -/
def openConds (s : State) (e : WeirEntry) : List Nat :=
  (List.range e.conds.length).filter (fun i => !s.weir.latched.contains i)

/-- Whether a condition of the awaited weir may be deferred (R157). -/
def defers (e : WeirEntry) (i : Nat) : Bool := (e.conds[i]?).any (fun c => c.defer)

/-- Whether every event of R154 but the relay's has taken place: LANDED of all participants, the conditions that no
relay choice defers, the decision with its digest reads. -/
def readyToRelease (s : State) (e : WeirEntry) : Bool :=
  gathers s && s.weir.due.isSome && s.weir.landed.length == (participants s).length &&
    s.weir.deferred.all (fun d => d.latched) && s.weir.decided && s.weir.digsDone == e.digs.length &&
    ((openConds s e).isEmpty || (s.weir.relayPosted && (openConds s e).all (defers e)))

/-- Whether the weir releases in the current lc, unless its release lc is still to come (R154). -/
def releasesNow (s : State) (e : WeirEntry) : Bool := readyToRelease s e && decide (s.weir.lastLc < s.lc)

/-- Latch one of the awaited weir's own conditions (R163). -/
def latchOwn (i : Nat) (s : State) : State :=
  match awaited s with
  | none => s
  | some e =>
    match e.conds[i]? with
    | none => s
    | some c =>
      if s.weir.latched.contains i = true ∨ condHolds s e.num c = false ∨ releasesNow s e = true then s
      else noteLast (rankOwn i) c.kind i (updWeir (fun w => { w with latched := insertNat i w.latched }) s)

/-- Latch a condition deferred from the preceding weir (R163, R169, R170). -/
def latchDeferred (i : Nat) (s : State) : State :=
  match awaited s with
  | none => s
  | some e =>
    match s.weir.deferred.find? (fun d => d.index == i) with
    | none => s
    | some d =>
      if d.latched = true ∨ condHolds s d.weirNum d.cond = false ∨ releasesNow s e = true then s
      else
        noteLast (rankDeferred i) d.cond.kind (32768 + i)
          (updWeir (fun w => { w with deferred := w.deferred.map (fun x => if x.index = i then { x with latched := true } else x) }) s)

/-! ## The release (R97, R154, R164, R166, R169, R181, R217, R222, R253) -/

/-- The gear of the segment that ends at the awaited weir; at the start weir, the run command's (R181). -/
def gearBefore (s : State) : Nat := if s.weir.await = 0 then s.runBlk.gear else s.weir.nextGear

/-- The gear of the segment that a release starts (R181). -/
def releaseGear (s : State) : Nat :=
  if s.heat.hot then min 3 (gearBefore s + 1) else gearBefore s

/-- The gear of the next segment applies: a drop that the engine makes itself sets GEAR_STATUS.DROP and is logged (R181,
R334, R367, R387). -/
def noteDrop (gear : Nat) (s : State) : State :=
  if gear = gearBefore s then s
  else
    let f := hottestField s
    logEvent 0x0501 0 atField f (toLe 1 f ++ toLe 1 (degrees (fieldQuarter s f)) ++ toLe 1 gear)
      { s with heat := { s.heat with drop := true } }

/-- The record an index of an empty weir log reads as. -/
def WeirRec.zero : WeirRec :=
  { weir := 0, relay := false, gear := 0, sent := false, deferred := false, digests := false, last := 0,
    lastIndex := 0, time := 0, holdLc := 0, step := 0 }

/-- Append a weir record (R166). -/
def logWeir (r : WeirRec) (s : State) : State :=
  { s with logs := { s.logs with
      weirs := Tab.set WeirRec.zero s.logs.weirs (s.logs.weirCount % 4096) r, weirCount := s.logs.weirCount + 1 } }

/-- What a release hands on to the next weir: the deferred conditions that a relay choice leaves open (R169). -/
def deferredOf (s : State) (e : WeirEntry) : List Deferred :=
  (openConds s e).filterMap (fun i =>
    (e.conds[i]?).map (fun c => { index := i, weirNum := e.num, cond := c, latched := false }))

/-- The weir record of the release taking place (R166). -/
def releaseRec (s : State) (e : WeirEntry) (relay : Bool) (gear : Nat) : WeirRec :=
  { weir := e.num, relay := relay, gear := gear, sent := e.sent, deferred := relay, digests := !e.digs.isEmpty,
    last := s.weir.last, lastIndex := s.weir.lastIndex, time := BitVec.ofNat 64 (nowNs s),
    holdLc := min (2 ^ 32 - 1) (s.lc - s.weir.due.getD s.lc), step := s.runBlk.step % 2 ^ 32 }

/-- What a release frees and starts in a cluster: the entries that the weir frees, which become idle and show their other
fields as loaded, and the bank and run of its router (R97, R130, R144, R145). -/
def releaseCluster (w : Nat) (first last : Bool) (cl : Cluster) : Cluster :=
  { cl with sb := Tab.mapVals Score.reset (fun _ e => if e.st = .done ∧ e.rel = w then { e with st := .idle } else e) cl.sb,
            pos := cl.pos.release first last }

/-- Sluices close, then open, at a release (R253, R255). -/
def releaseSluices (w : Nat) (s : State) : State :=
  let closing := (s.sluices.filter (fun e => e.2.template && e.2.closeWeir == w)).map Prod.fst
  let opening := (s.sluices.filter (fun e => e.2.template && e.2.openWeir == w)).map Prod.fst
  opening.foldl (fun s k => openSluice k s) (closing.foldl (fun s k => closeSluice k s) s)

/-- Migration, staging and extraction lists that start at a release (R217, R222). -/
def releaseLists (w : Nat) (s : State) : State :=
  let s := (s.tier.migs.filter (fun m => m.startWeir == w)).foldl (fun s m => startMig false m.list m.entries s) s
  { s with tier := { s.tier with
      stages := Tab.mapVals StageList.none (fun _ l => if l.startWeir = w then startStage l else l) s.tier.stages } }

/-- Hold accounting of a release (R167, R230). -/
def countHold (r : WeirRec) (s : State) : State :=
  { s with
    weir := { s.weir with holdTotal := s.weir.holdTotal + r.holdLc, relays := s.weir.relays + b2n r.relay },
    tier := { s.tier with
      holdMig := if r.last = 4 then s.tier.holdMig + r.holdLc else s.tier.holdMig,
      holdStg := if r.last = 3 then s.tier.holdStg + r.holdLc else s.tier.holdStg } }

/-- The weir controller after a release: it awaits the next weir, for which the steward posts the main segment (R154,
R164, R169). -/
def afterRelease (i : Nat) (relay : Bool) (gear : Nat) (ds : List Deferred) (noParts hold final : Bool) (lc : Nat)
    (w : WeirCtl) : WeirCtl :=
  { w with
    resumes := if final then w.resumes else w.resumes ++ [{ at_ := lc + 128, ix := i, seg := relay, gear := gear }],
    await := i + 1, relIx := i, phase := .released, relLc := lc, seg := relay, nextGear := gear, arrived := [],
    landed := [], latched := [], deferred := ds, due := if noParts then some lc else none, decided := !hold,
    relayPosted := false, eligible := false, digsDone := 0, last := if hold then 0 else 0xF, lastIndex := 0,
    lastLc := lc, lastRank := if hold then 2000 else rankDecision }

/-- The release of the awaited weir (R154). -/
def doRelease (e : WeirEntry) (s : State) : State :=
  let relay := !(openConds s e).isEmpty
  let gear := releaseGear s
  let final := decide (weirCount s ≤ s.weir.await + 1)
  let ds := deferredOf s e
  let r := releaseRec s e relay gear
  let ps := participants s
  let first := s.weir.await == 0
  let s := noteDrop gear (countHold r (logWeir r s))
  let s := updWeir (afterRelease s.weir.await relay gear ds ps.isEmpty s.weir.hold final s.lc)
    { s with lastRelease := s.lc, heat := { s.heat with hot := false } }
  let s := ps.foldl (fun s c => updCluster c (releaseCluster e.num first final) s) s
  let s := { s with gates := s.gates.map (fun g => { g with pos := g.pos.release first final }) }
  releaseLists e.num (inOrder (releaseSluices e.num) s)

/-- Every condition of the awaited weir that holds is latched (R163): its own in CONDS order, then the deferred ones. -/
def latchAll (s : State) : State :=
  match awaited s with
  | none => s
  | some e =>
    s.weir.deferred.foldl (fun s d => latchDeferred d.index s)
      ((List.range e.conds.length).foldl (fun s i => latchOwn i s) s)

/-- The end of the release lc: the awaited weir releases when every event of R154 has taken place in an earlier lc, and
what already holds is latched for the next one (R154, R163, R398). -/
def releaseLc (s : State) : State :=
  match awaited s with
  | none => s
  | some e => if releasesNow s e then latchAll (doRelease e s) else s

end Sys2Proof.Machine
end

