-- ==== Sys2Proof/Machine/Time.lean ====
section
/-! DEFINITION. The passing of lc: at its end an lc latches the conditions that hold, does the lattice's work, and
releases the awaited weir when it is due; the next one begins with a resume that falls in it (R154, R163). An lc ends
when a step finds no command waiting, or when a command comes for a core that issues later (log entries 2 and 3). -/

namespace Sys2Proof.Machine

/-- The fatal faults that the event log has gained from one state to another (R367, R397). -/
def faultsSince (t r : State) : List FaultRec :=
  (List.range (r.logs.eventCount - t.logs.eventCount)).filterMap (fun i =>
    let e := Tab.get EventRec.zero r.logs.events ((t.logs.eventCount + i) % eventRing)
    if 0x0300 < e.code.toNat ∧ e.code.toNat < 0x0400 then
      some { cause := e.code.toNat - 0x0300, place := e.place.toNat, loc := e.loc.toNat, detail := fieldB e.data 8 8 }
    else none)

/-- The release that falls in the lc `t` has just ended, if any. A fault that it meets prevents it: the weir, its record, its
lists and its sluices stay as they are, and the lattice freezes (R398). -/
def tryRelease (t : State) : State :=
  let r := releaseLc t
  if latticeRuns r then r
  else
    match faultsSince t r with
    | [] => r
    | f :: fs => enterWith f fs t

/-- The next lc begins, after `t` has ended the current one without a fault; in the safe state nothing resumes (R154, R180,
R398). -/
def nextLc (t : State) : State :=
  let r := tryRelease t
  if latticeRuns r then resumeLc (tickHall (gearDivNow t) { r with lc := t.lc + 1 }) else r

/-- One tick: the end of an lc while a run is in progress, else one module-reference cycle of hall time while the
module is powered (log entry 2). A fault of the lc prevents the release that falls in it (R398). -/
def tick (s : State) : State :=
  if latticeRuns s then
    let u := feedDescs (latchAll s)
    if latticeRuns u then
      let r := finishLc u
      match r.2 with
      | [] => nextLc r.1
      | f :: fs => enterWith f fs r.1
    else u
  else if s.power.on then tickHall 84 s
  else s

/-- `n` ticks, as long as the lattice runs. -/
def ticks : Nat → State → State
  | 0, s => s
  | n + 1, s => if latticeRuns s then ticks n (tick s) else s

/-- Let lc pass until lc `t` (log entry 3). -/
def advanceTo (t : Nat) (s : State) : State := ticks (t - s.lc) s

end Sys2Proof.Machine
end

