-- ==== Sys2Proof/Machine/Operands.lean ====
section
/-! DEFINITION. How a core's instruction issues and what it reads and writes: the issue lc, the fetch region, the
program counter with its loop and return stacks, general and address registers (R79, R110 to R115). -/

namespace Sys2Proof.Machine

/-- Whether a scalar core is running its program: issuing, or in a WAIT that its `ready` ends. -/
def ScalarCore.runs (x : ScalarCore) : Bool := x.st == .issuing || x.st == .waiting

/-- The cluster whose S-mem a scalar core's program is fetched from: in gang mode S0's is the leader's (R132). -/
def fetchFrom (s : State) (c : Nat) (k : Sc) : Nat := if inGang (clusterAt s c) ∧ k = .s0 then gangLeader c else c

/-- Whether a program counter lies in a core's region (R110). -/
def inRegion (cl : Cluster) (baseOff : Nat) (pc : Nat) : Bool :=
  decide (dirWord cl baseOff ≤ pc) && decide (pc < dirWord cl baseOff + dirWord cl (baseOff + 2))

/-- Offset of a core's region in the S-mem directory (R108). -/
def regionOff : Sc → Nat
  | .s0 => 0x04
  | .s1 => 0x08

/-! ## Program counter -/

/-- Continue at an address, wrapping loops. -/
def goTo (k : Sc) (pc : Nat) (cl : Cluster) : Cluster :=
  let x := scalarCore k cl
  let r := wrapLoops x.loops pc
  setScalar k { x with pc := r.1, loops := r.2 } cl

/-- The next instruction. -/
def stepPc (k : Sc) (cl : Cluster) : Cluster := goTo k ((scalarCore k cl).pc + 4) cl

/-- The innermost loop body, when the program counter lies in it; a subroutine called from a body lies outside (R114). -/
def bodyAt (x : ScalarCore) : Option LoopFrame :=
  match x.loops with
  | [] => none
  | l :: _ => if l.start ≤ x.pc ∧ x.pc < l.stop then some l else none

/-- Whether a jump leaves the innermost loop body (R114). -/
def leavesLoop (x : ScalarCore) (target : Nat) : Bool :=
  match bodyAt x with
  | none => false
  | some l => decide (target < l.start) || decide (l.stop ≤ target)

/-- The target of a word offset from an instruction's own address (R112). -/
def targetOf (pc : Nat) (off : Int) : Nat := ((pc : Int) + 4 * off).toNat

/-- A taken branch or jump; one out of a loop body is reserved (R111, R114). -/
def takeJump (c : Nat) (k : Sc) (off : Int) (w : Work) : Work :=
  let x := scalarCore k w.cl
  let t := targetOf x.pc off
  if leavesLoop x t then w.fail c cFetch x.pc else w.on (setScalar k { x with pc := t })

/-! ## Issue -/

/-- Keep what an instruction did in its lc; faults freeze the lattice at the end of the lc (R206, R398). -/
def settle (c : Nat) (w : Work) (s : State) : State :=
  let s := setCluster c w.cl s
  match w.bad with
  | [] => s
  | bad => endLc bad s

/-- A register result and when it is first read: an address register or a general one, its number, its latency. -/
structure Dst where
  isA : Bool
  reg : Nat
  lat : Nat
deriving DecidableEq, Repr

/-- Whether a pending effect is a result for a register. -/
def lateFor (k : Sc) (d : Dst) (e : Late) : Bool :=
  match e with
  | .g k' r _ => !d.isA && k' == k && r == d.reg
  | .a r _ _ => d.isA && r == d.reg
  | _ => false

/-- Whether an earlier result lands in the register in the same lc. -/
def clashes (now : Nat) (k : Sc) (d : Dst) (cl : Cluster) : Bool :=
  cl.late.any (fun e => e.1 == now + d.lat && lateFor k d e.2)

/-- The results that land in the register in that lc: those still to come, and the one that an instruction of one lc has
just given a general register. -/
def landing (now : Nat) (k : Sc) (d : Dst) (cl : Cluster) : List W64 :=
  cl.late.filterMap (fun e =>
    if e.1 = now + d.lat ∧ lateFor k d e.2 = true then
      (match e.2 with | .g _ _ v => some v | .a _ v _ => some (v.setWidth 64) | _ => none)
    else none) ++ (if !d.isA && d.lat == 1 then [Tab.get 0 (scalarCore k cl).g d.reg] else [])

/-- Give every result that lands in the register in that lc one value. -/
def blur (now : Nat) (k : Sc) (d : Dst) (x : W64) (cl : Cluster) : Cluster :=
  { cl with late := cl.late.map (fun e =>
      if e.1 = now + d.lat ∧ lateFor k d e.2 = true then
        (e.1, match e.2 with | .g k' r _ => .g k' r x | .a r _ ld => .a r (x.setWidth 32) ld | l => l)
      else e) }

/-- A core's own fetch of the word at its program counter passes the correction stage of S-mem (R91, R106); a member of
a gang issues what its leader has fetched (R132). -/
def fetchWord (t : State) (c : Nat) (k : Sc) (cl : Cluster) : Work :=
  if fetchFrom t c k = c then (readSmem c (scalarCore k cl).pc 4 { cl := cl, bad := [] }).2 else { cl := cl, bad := [] }

/-- What an instruction does in its issue lc: from the cluster that issues it, the cluster whose registers steer it, the
lc and the work so far. The steering cluster is the issuing one, or the leader of its gang (R132). -/
abbrev Act := Nat → Cluster → Nat → Work → Work

/-- The core issues in lc `now`, and can issue again in the next one. -/
def beginIssue (k : Sc) (now : Nat) (cl : Cluster) : Cluster :=
  setScalar k { scalarCore k cl with st := .issuing, ready := now + 1 } cl

/-- An instruction in its issue lc: two results that land in one register in one lc leave there a free value that depends
on them alone (R16, R17; R79 states no outcome; log entry 6). -/
def resultOf (c : Nat) (k : Sc) (d : Option Dst) (f : Act) (ld : Cluster) (now : Nat) (w0 : Work) : Work :=
  let w := f c ld now w0
  match d with
  | none => w
  | some d => if clashes now k d w0.cl then w.on (fun cl => blur now k d (Config.clash (landing now k d cl)) cl) else w

/-- The work of an instruction of cluster `c` in lc `t.lc`, its fetch included. -/
def workOf (c : Nat) (k : Sc) (d : Option Dst) (f : Act) (t : State) : Work :=
  let w0 := fetchWord t c k (beginIssue k t.lc (clusterAt t c))
  if w0.bad ≠ [] then w0 else resultOf c k d f (clusterAt t (fetchFrom t c k)) t.lc w0

/-- An instruction that one core issues alone. -/
def issueNow (c : Nat) (k : Sc) (d : Option Dst) (f : Act) (t : State) : State := settle c (workOf c k d f t) t

/-- The members of the gang that cluster `c` leads: the leader, and every participant whose S0 issues its words (R132). -/
def gangOf (t : State) (c : Nat) : List Nat :=
  c :: (participants t).filter (fun m =>
    m != c && gangLeader m == c && inGang (clusterAt t m) && (clusterAt t m).s0.runs)

/-- A word of a gang leader's S0: every member issues it in the same lc, each against its own registers and memories
(R132). A word that cannot be fetched goes to none of them (R92). -/
def gangNow (c : Nat) (d : Option Dst) (f : Act) (t : State) : State :=
  let lead := fetchWord t c .s0 (beginIssue .s0 t.lc (clusterAt t c))
  if lead.bad ≠ [] then settle c lead t
  else
    let r := (gangOf t c).foldl (fun (r : State × List FaultRec) m =>
      let w := workOf m .s0 d f t
      (setCluster m w.cl r.1, r.2 ++ w.bad)) (t, [])
    match r.2 with
    | [] => r.1
    | bad => endLc bad r.1

/-- Whether a core's instructions come from its gang's leader (R132). -/
def ganged (s : State) (c : Nat) (k : Sc) : Bool := inGang (clusterAt s c) && k == .s0

/-- Issue of a scalar instruction in the first lc in which its core can issue: outside its region the fetch is fatal
(R110). A core that runs no program issues nothing, and neither does a gang member's S0 by itself: only the leader's
fetches (R132). -/
def issueScalar (c : Nat) (k : Sc) (d : Option Dst) (f : Act) (s : State) : State :=
  if latticeRuns s && (scalarCore k (clusterAt s c)).runs && (!ganged s c k || gangLeader c == c) then
    let t := advanceTo (scalarCore k (clusterAt s c)).ready s
    if latticeRuns t && (scalarCore k (clusterAt t c)).runs then
      (if inRegion (clusterAt t c) (regionOff k) (scalarCore k (clusterAt t c)).pc then
         (if ganged t c k then gangNow c d f t else issueNow c k d f t)
       else endLc [clusterFault cFetch c (scalarCore k (clusterAt t c)).pc] t)
    else t
  else s

/-- A scalar instruction as a command. -/
def scalarCmd (c : Nat) (k : Sc) (d : Option Dst) (f : Act) (s : State) : Out := onPlace (isCluster c) (issueScalar c k d f s)

/-! ## Registers -/

/-- A general register as an instruction of core `k` of cluster `c` reads it. -/
def rg (c : Nat) (k : Sc) (w : Work) (r : BitVec 5) : W64 := readG (inGang w.cl) c k r.toNat w.cl

/-- A result of one lc (R79). -/
def putG (k : Sc) (r : BitVec 5) (v : W64) (w : Work) : Work := w.on (writeG (inGang w.cl) k r.toNat v)

/-- A general register as it steers the program: the leader's in a gang's S0, whose branches and counts every member
follows (R132), the core's own otherwise. -/
def steer (c : Nat) (k : Sc) (ld : Cluster) (r : BitVec 5) : W64 :=
  readG (inGang ld) (if inGang ld && k == .s0 then gangLeader c else c) k r.toNat ld

/-- A result in a general register. -/
def gDst (rd : BitVec 5) (lat : Nat) : Option Dst := some { isA := false, reg := rd.toNat, lat := lat }

/-- A result in an address register. -/
def aDst (ad : Nat) (lat : Nat) : Option Dst := some { isA := true, reg := ad, lat := lat }

/-- What a scalar instruction with a result of one lc in `rd` does. -/
def opAct (k : Sc) (rd : BitVec 5) (f : (BitVec 5 → W64) → W64) : Act :=
  fun c _ _ w => (putG k rd (f (rg c k w)) w).on (stepPc k)

/-- A scalar instruction with a result of one lc in `rd`. -/
def scalarOp (c : Nat) (k : Sc) (rd : BitVec 5) (f : (BitVec 5 → W64) → W64) (s : State) : Out :=
  scalarCmd c k (gDst rd 1) (opAct k rd f) s

end Sys2Proof.Machine
end

