-- ==== Sys2Proof/Machine/Station.lean ====
section
/-! DEFINITION. S0's issue, start and weir instructions and S1's memory and address instructions (R115 to R121). -/

namespace Sys2Proof.Machine

/-! ## S0 -/

/-- MOP: issue a macro-operation, with operand B's address from a[AREG] when SUB is 1; AREG must be zero otherwise
(R121). -/
def execMop (c : Nat) (core : BitVec 4) (idx : BitVec 11) (sub : Bool) (areg : BitVec 3) (s : State) : Out :=
  scalarCmd c .s0 none (fun c _ now w =>
    let pc := w.cl.s0.pc
    if sub = false ∧ areg ≠ 0 then w.fail c cFetch pc
    else
      (startMop c now core.toNat idx.toNat (if sub then some (readA areg.toNat w.cl).toNat else none) w).on (stepPc .s0)) s

/-- Whether a vector core has been started and not reached END, a start still to take effect included (R61). -/
def vecBusy (v : Nat) (cl : Cluster) : Bool :=
  (vecCore v cl).st != .stopped || cl.late.any (fun e => match e.2 with | .vstart v' _ => v' == v | _ => false)

/-- VSTART: vector core VC issues its first instruction in lc c + 2; a core that has not reached END is a schedule
collision (R61, R117); VC 6 and 7 are reserved. -/
def execVstart (c : Nat) (vc : BitVec 3) (vaddr : BitVec 13) (s : State) : Out :=
  scalarCmd c .s0 none (fun c _ now w =>
    if 6 ≤ vc.toNat ∨ inRegion w.cl 0x0C (8 * vaddr.toNat) = false then w.fail c cFetch w.cl.s0.pc
    else if vecBusy vc.toNat w.cl then w.fail c cCollision (12 + vc.toNat)
    else w.on (fun cl => later (now + 2) (.vstart vc.toNat (8 * vaddr.toNat)) (stepPc .s0 cl))) s

/-- Whether S1 has been started and not reached END (R117). -/
def s1Running (cl : Cluster) : Bool :=
  cl.s1.st != .stopped || cl.late.any (fun e => match e.2 with | .s1start _ => true | _ => false)

/-- S1START: S1 issues from SADDR × 4 in lc c + 2; before its END it is a schedule collision (R117). -/
def execS1start (c : Nat) (saddr : BitVec 14) (s : State) : Out :=
  scalarCmd c .s0 none (fun c _ now w =>
    if s1Running w.cl then w.fail c cCollision 19
    else w.on (fun cl => later (now + 2) (.s1start (4 * saddr.toNat)) (stepPc .s0 cl))) s

/-- Effects that R119 wants to have ended: accesses of the cores, results on their way to memory or the queue, narrow
loads, starts. `ld` of an address-register result says that a load makes it. -/
def outstanding (e : Late) : Bool :=
  match e with
  | .mem _ _ _ core => core
  | .mvq _ => true
  | .addRow .. => true
  | .tread .. => true
  | .gread .. => true
  | .a _ _ ld => ld
  | .vstart .. => true
  | .s1start _ => true
  | _ => false

/-- Whether a table load into a unit of a core is in progress in an lc (R65). -/
def tableBusy (now : Nat) (x : VecCore) : Bool :=
  (decide (x.fwd.loadFrom ≤ now) && decide (now < x.fwd.loadTo)) || (decide (x.der.loadFrom ≤ now) && decide (now < x.der.loadTo))

/-- The conditions under which S0 may issue WEIR in lc `now` (R119); a table load is a load outstanding until its 33 lc
are over. -/
def weirReady (now : Nat) (cl : Cluster) : Bool :=
  cl.mats.all (fun m => decide (m.2.free ≤ now) && m.2.op.isNone) &&
    cl.vecs.all (fun v => v.2.st == .stopped && !tableBusy now v.2) &&
    cl.s1.st == .stopped && !cl.late.any (fun e => outstanding e.2) && cl.mvq.isEmpty && cl.vmq.isEmpty

/-- Arrive at a weir: S0 stops issuing; it resumes after the WEIR, or past the relay jump, or at its target (R118). -/
def arriveWeir (w : Nat) (rly sent : Bool) (relayTo : Nat) (cl : Cluster) : Cluster :=
  { cl with
    s0 := { cl.s0 with st := .atWeir, pc := cl.s0.pc + 4 },
    resumeMain := cl.s0.pc + (if rly then 8 else 4), resumeRelay := relayTo, weirSent := sent,
    arriveSent := true, weirNum := w }

/-- The relay-jump word of a WEIR passes the correction stage of the cluster that fetches it, a gang's leader (R106,
R132). -/
def jumpWord (c off : Nat) (wk : Work) : Work :=
  if inGang wk.cl && gangLeader c != c then wk else (readSmem c off 4 wk).2

/-- The word at an S-mem offset. -/
def smemWord (cl : Cluster) (off : Nat) : Nat := leNat (Mem.read 0 cl.smem off 4)

/-- WEIR: the cluster arrives in the issue lc (R118, R119). In any other state than R119's it is a schedule
collision; SENT without a scratch range, and RLY without a relay jump behind it, are reserved. -/
def execWeir (c : Nat) (w : BitVec 16) (rly sent : Bool) (s : State) : Out :=
  scalarCmd c .s0 none (fun c ld now wk =>
    let pc := wk.cl.s0.pc
    let jmp := smemWord ld (pc + 4)
    delivered wk ((), if rly then jumpWord c (pc + 4) wk else wk) (fun _ wk =>
      if (sent = true ∧ sentScratch wk.cl = 0) ∨ (rly = true ∧ bits jmp 31 26 ≠ 0x0E) then wk.fail c cFetch pc
      else if weirReady now wk.cl = false then wk.fail c cCollision w.toNat
      else
        wk.on (fun cl =>
          arriveWeir w.toNat rly sent (if rly then targetOf (pc + 4) (sext 26 (bits jmp 25 0)) else pc + 4) cl))) s

/-- Whether the final weir has released in the run in progress (R161). -/
def finalReleased (s : State) : Bool := s.weir.phase == .released && decide (weirCount s ≤ s.weir.relIx + 1)

/-- The members of a gang whose leader stands at a weir, all at it; none for another member (R132). -/
def gangWeir (s : State) (c : Nat) : List Nat :=
  if gangLeader c = c then c :: (participants s).filter (fun m =>
    m != c && gangLeader m == c && inGang (clusterAt s m) && (clusterAt s m).s0.st == .atWeir)
  else []

/-- STOP: once the final weir has released, S0 ends its program; in any other position STOP is reserved (R111,
R120). -/
def execStop (c : Nat) (s : State) : Out :=
  onPlace (isCluster c)
    (if latticeRuns s && (clusterAt s c).s0.st == .atWeir then
       (if finalReleased s then
          (if ganged s c .s0 then gangWeir s c else [c]).foldl (fun s m =>
            updCluster m (fun cl => { cl with s0 := { cl.s0 with st := .stopped } }) s) s
        else s)
     else issueScalar c .s0 none (fun c _ _ w => w.fail c cFetch w.cl.s0.pc) s)

/-! ## S1 -/

/-- Base address of an S1 instruction: a[rb[2:0]], or g[rb][31:0] (R115). -/
def s1Base (c : Nat) (aReg : Bool) (rb : BitVec 5) (w : Work) : Nat :=
  if aReg then (readA (rb.toNat % 8) w.cl).toNat else (rg c .s1 w rb).toNat % 2 ^ 32

/-- Address of an S1 memory instruction (R115). -/
def s1Addr (c : Nat) (aReg : Bool) (rb : BitVec 5) (off : BitVec 13) (w : Work) : Nat :=
  (((s1Base c aReg rb w : Int) + 8 * off.toInt) % (2 ^ 32 : Int)).toNat

/-- With A = 1, rb[4:3] must be zero (R115, R117). -/
def rbOk (aReg : Bool) (rb : BitVec 5) : Bool := !aReg || decide (rb.toNat < 8)

/-- LDA: a narrow read into an address register, five lc; raw when RAW is 1 (R99, R105, R115). -/
def execLda (c : Nat) (rd : BitVec 5) (aReg : Bool) (rb : BitVec 5) (raw half : Bool) (off : BitVec 13) (s : State) : Out :=
  scalarCmd c .s1 (aDst rd.toNat 5) (fun c _ now w =>
    let a := s1Addr c aReg rb off w
    if 8 ≤ rd.toNat ∨ rbOk aReg rb = false then w.fail c cFetch w.cl.s1.pc
    else if okAccess a 8 = false then w.fail c cAddress a
    else if raw = false ∧ guarded w.cl a 8 = true then w.fail c cScoreboard a
    else if now < w.cl.s1Busy then w.fail c cCollision 19
    else
      delivered w (readMem c now a 8 w) (fun data w => w.on (fun cl =>
        later (now + 5) (.a rd.toNat (BitVec.ofNat 32 (fieldB data (if half then 4 else 0) 4)) true) (stepPc .s1 cl)))) s

/-- STN: a narrow write of g[rs] that commits in lc c + 1 (R94, R99, R115). -/
def execStn (c : Nat) (rs : BitVec 5) (aReg : Bool) (rb : BitVec 5) (off : BitVec 13) (s : State) : Out :=
  scalarCmd c .s1 none (fun c _ now w =>
    let a := s1Addr c aReg rb off w
    if rbOk aReg rb = false then w.fail c cFetch w.cl.s1.pc
    else if okAccess a 8 = false then w.fail c cAddress a
    else if guarded w.cl a 8 then w.fail c cScoreboard a
    else if now + 1 < w.cl.s1Busy then w.fail c cCollision 19
    else w.on (fun cl => writeMem (now + 1) a (toLe 8 (rg c .s1 w rs).toNat) .narrow (stepPc .s1 cl))) s

/-- The functions of AOP (R116); none for a reserved code or a reserved immediate. `g` reads a general register's
low half. -/
def aopFn (fn : Nat) (a : W32) (imm : BitVec 16) (g : Nat → W32) : Option W32 :=
  if fn = 0 then some (a + imm.signExtend 32)
  else if fn = 3 then some (a &&& imm.setWidth 32)
  else if fn = 5 then some (a * imm.setWidth 32)
  else if fn = 6 ∨ fn = 7 ∨ 32 ≤ imm.toNat then none
  else if fn = 1 then some (a + g imm.toNat)
  else if fn = 2 then some (a <<< imm.toNat)
  else some (if (g imm.toNat).ult a then g imm.toNat else a)

/-- Latency of an AOP function (R116). -/
def aopLat (fn : Nat) : Nat := if fn = 5 then 3 else 1

/-- What AOP does (R116). -/
def aopAct (ad as_ fn : BitVec 3) (imm : BitVec 16) : Act := fun c _ now w =>
  match aopFn fn.toNat (readA as_.toNat w.cl) imm (fun r => (rg c .s1 w (BitVec.ofNat 5 r)).setWidth 32) with
  | some v => w.on (fun cl => later (now + aopLat fn.toNat) (.a ad.toNat v false) (stepPc .s1 cl))
  | none => w.fail c cFetch w.cl.s1.pc

/-- AOP: address-register arithmetic (R116). -/
def execAop (c : Nat) (ad as_ fn : BitVec 3) (imm : BitVec 16) (s : State) : Out :=
  scalarCmd c .s1 (aDst ad.toNat (aopLat fn.toNat)) (aopAct ad as_ fn imm) s

/-- What MOVA does (R113). -/
def movaAct (ad : BitVec 3) (rs : BitVec 5) : Act := fun c _ now w =>
  w.on (fun cl => later (now + 1) (.a ad.toNat ((rg c .s1 w rs).setWidth 32) false) (stepPc .s1 cl))

/-- MOVA: a[ad] := g[rs][31:0] (R113). -/
def execMova (c : Nat) (ad : BitVec 3) (rs : BitVec 5) (s : State) : Out :=
  scalarCmd c .s1 (aDst ad.toNat 1) (movaAct ad rs) s

/-- Occupy a table unit for 33 lc from lc `now + 1` on; a load that comes while another one lasts keeps it occupied from
the first on (R61, R65; log entry 77). -/
def TableUnit.occupy (now : Nat) (u : TableUnit) : TableUnit :=
  { u with loadFrom := if now < u.loadTo then min u.loadFrom (now + 1) else now + 1, loadTo := now + 34 }

/-- TLOAD: load a table image: nine wide reads in lc c + 1 to c + 9, the unit occupied for 33 lc from c + 1 (R65,
R99, R117). -/
def execTload (c : Nat) (vc : BitVec 3) (deriv aReg : Bool) (rb : BitVec 5) (s : State) : Out :=
  scalarCmd c .s1 none (fun c _ now w =>
    let a := s1Base c aReg rb w
    if 6 ≤ vc.toNat ∨ rbOk aReg rb = false then w.fail c cFetch w.cl.s1.pc
    else if (List.range 9).any (fun j => !okAccess (a + 512 * j) 512) then w.fail c cAddress a
    else if (List.range 9).any (fun j => guarded w.cl (a + 512 * j) 512) then w.fail c cScoreboard a
    else if now + 1 < w.cl.s1Busy then w.fail c cCollision 19
    else
      w.on (fun cl =>
        let cl := updVec vc.toNat (fun x =>
          if deriv then { x with der := x.der.occupy now } else { x with fwd := x.fwd.occupy now }) cl
        (List.range 9).foldl (fun cl j => later (now + 1 + j) (.tread vc.toNat deriv a j) cl)
          (stepPc .s1 { cl with s1Busy := now + 10 }))) s

/-- GLOAD: load a generator state from W-mem or A-mem, read in lc c + 1, in use from c + 6 (R78, R88, R99, R117). -/
def execGload (c : Nat) (vc : BitVec 3) (aReg : Bool) (rb : BitVec 5) (s : State) : Out :=
  scalarCmd c .s1 none (fun c _ now w =>
    let a := s1Base c aReg rb w
    if 6 ≤ vc.toNat ∨ rbOk aReg rb = false then w.fail c cFetch w.cl.s1.pc
    else if okAccess a 32 = false ∨ pBase ≤ a then w.fail c cAddress a
    else if guarded w.cl a 32 then w.fail c cScoreboard a
    else if now + 1 < w.cl.s1Busy then w.fail c cCollision 19
    else w.on (fun cl => later (now + 1) (.gread vc.toNat a) (stepPc .s1 cl))) s

/-- END of S1: it stops until the next S1START (R113). -/
def execS1End (c : Nat) (s : State) : Out :=
  scalarCmd c .s1 none (fun _ _ _ w => w.on (fun cl => { cl with s1 := { cl.s1 with st := .stopped } })) s

end Sys2Proof.Machine
end

