-- ==== Sys2Proof/Machine/VecOps.lean ====
section
/-! DEFINITION. How a vector core issues, what lands in its registers and when, lane-wise results with their numeric
events, REP, and vector addresses (R59 to R64, R126, R129). -/

namespace Sys2Proof.Machine

/-! ## Issue -/

/-- Continue at an address, or at the start of the repeated block until its count is used up (R62). -/
def vecGo (pc : Nat) (x : VecCore) : VecCore :=
  if 0 < x.repLeft ∧ pc = x.repStop then
    (if 1 < x.repLeft then { x with pc := x.repStart, repLeft := x.repLeft - 1, repIter := x.repIter + 1 }
     else { x with pc := pc, repLeft := 0, repIter := 0 })
  else { x with pc := pc }

/-- The next vector instruction. -/
def vecNext (x : VecCore) : VecCore := vecGo (x.pc + 8) x

/-- What a vector core's instruction does in lc `t.lc`, once its word has passed the correction stage of S-mem (R91,
R106). -/
def vecNow (c v : Nat) (f : Nat → Work → Work) (t : State) : State :=
  let cl := updVec v (fun x => { x with ready := t.lc + 1 }) (clusterAt t c)
  let w := (readSmem c (vecCore v cl).pc 8 { cl := cl, bad := [] }).2
  settle c (if w.bad ≠ [] then w else f t.lc w) t

/-- Issue of a vector instruction in the first lc in which its core can issue; outside the vector-program region the
fetch is fatal (R60, R110). A core between END and its start issues nothing. -/
def issueVec (c v : Nat) (f : Nat → Work → Work) (s : State) : State :=
  if latticeRuns s && (vecCore v (clusterAt s c)).st == .issuing then
    let t := advanceTo (vecCore v (clusterAt s c)).ready s
    if latticeRuns t && (vecCore v (clusterAt t c)).st == .issuing then
      (if inRegion (clusterAt t c) 0x0C (vecCore v (clusterAt t c)).pc then vecNow c v f t
       else endLc [clusterFault cFetch c (vecCore v (clusterAt t c)).pc] t)
    else t
  else s

/-- Whether a cluster and one of its vector cores exist (R22, R25). -/
def vecExists (c v : Nat) : Bool := isCluster c && decide (v < 6)

/-- A vector instruction as a command; the program goes on to the next instruction. -/
def vecCmd (c v : Nat) (f : Nat → Work → Work) (s : State) : Out :=
  onPlace (vecExists c v) (issueVec c v (fun now w => (f now w).on (updVec v vecNext)) s)

/-- A reserved encoding (R111). -/
def vecIllegal (c v : Nat) (w : Work) : Work := w.fail c cFetch (vecCore v w.cl).pc

/-! ## Results -/

/-- Whether a result for a vector register lands in an lc already. -/
def landsV (at_ v r : Nat) (cl : Cluster) : Bool :=
  cl.late.any (fun e => e.1 == at_ && (match e.2 with | .v v' r' _ _ => v' == v && r' == r | _ => false))

/-- Whether a result for a mask register lands in an lc already. -/
def landsM (at_ v r : Nat) (cl : Cluster) : Bool :=
  cl.late.any (fun e => e.1 == at_ && (match e.2 with | .m v' r' _ _ => v' == v && r' == r | _ => false))

/-- A result first read in lc `at_`; two results in one register in one lc are a schedule collision (R61), raised in the
issue lc of the later instruction (log entry 75). -/
def putV (c at_ v r : Nat) (x : Lanes) (mask : W32) (w : Work) : Work :=
  if landsV at_ v r w.cl then w.fail c cCollision (12 + v) else w.on (later at_ (.v v r x mask))

/-- A mask result first read in lc `at_` (R59, R61). -/
def putM (c at_ v r : Nat) (x mask : W32) (w : Work) : Work :=
  if landsM at_ v r w.cl ∧ r ≠ 0 then w.fail c cCollision (12 + v) else w.on (later at_ (.m v r x mask))

/-- A vector register as an instruction reads it. -/
def vr (v : Nat) (w : Work) (r : BitVec 5) : Lanes := readV v r.toNat w.cl

/-- The mask an instruction names (R59). -/
def vm (v : Nat) (w : Work) (m : BitVec 3) : W32 := readM v m.toNat w.cl

/-- A mask word from one bit per lane. -/
def maskBits (f : Nat → Bool) : W32 := BitVec.ofNat 32 (packBits 1 ((List.range 32).map (fun l => b2n (f l))))

/-- How many active lanes meet a test. -/
def countLanes (mask : W32) (f : Nat → Bool) : Nat := ((List.range 32).filter (fun l => mask.getLsbD l && f l)).length

/-- Whether a result has become infinite by overflow (R52). -/
def overflowed (r : FRes) : Bool := r.ovf && (match f32 r.bits with | .inf _ => true | _ => false)

/-- Results of a computing operation, one per lane: active lanes are written, and their NaN and overflows counted
(R52, R59, R63). -/
def putF (c now lat v : Nat) (vd : BitVec 5) (mask : W32) (f : Nat → FRes) (w : Work) : Work :=
  let rs := (List.range 32).map f
  let res (l : Nat) : FRes := rs.getD l { bits := 0, nan := false, ovf := false }
  (putV c (now + lat) v vd.toNat (mkLanes (fun l => (res l).bits)) mask w).on
    (laterNum (now + lat) (countLanes mask (fun l => (res l).nan)) (countLanes mask (fun l => overflowed (res l))) 0)

/-- A lane-wise FP32 operation of two sources (R63). -/
def fpOp2 (c v : Nat) (vd va vb : BitVec 5) (m : BitVec 3) (lat : Nat) (f : W32 → W32 → FRes) (s : State) : Out :=
  vecCmd c v (fun now w =>
    putF c now lat v vd (vm v w m) (fun l => f (lane (vr v w va) l) (lane (vr v w vb) l)) w) s

/-- A lane-wise FP32 operation of three sources (R63). -/
def fpOp3 (c v : Nat) (vd va vb vc : BitVec 5) (m : BitVec 3) (f : FVal → FVal → FVal → FVal) (s : State) : Out :=
  vecCmd c v (fun now w =>
    putF c now 4 v vd (vm v w m)
      (fun l => roundF32 (f (f32 (lane (vr v w va) l)) (f32 (lane (vr v w vb) l)) (f32 (lane (vr v w vc) l)))) w) s

/-- A lane-wise operation that moves or combines bits and counts nothing (R63). -/
def bitOp (c v : Nat) (vd : BitVec 5) (m : BitVec 3) (lat : Nat) (f : Work → Nat → W32) (s : State) : Out :=
  vecCmd c v (fun now w => putV c (now + lat) v vd.toNat (mkLanes (f w)) (vm v w m) w) s

/-- An INT32 operation (R63). -/
def intOp (c v : Nat) (vd va vb : BitVec 5) (m : BitVec 3) (f : W32 → W32 → W32) (s : State) : Out :=
  bitOp c v vd m 2 (fun w l => f (lane (vr v w va) l) (lane (vr v w vb) l)) s

/-! ## Wide integers -/

/-- The 48-bit value of a register pair in a lane (R63). -/
def wideAt (v : Nat) (w : Work) (r : BitVec 5) (l : Nat) : Nat :=
  (lane (readV v r.toNat w.cl) l).toNat + 2 ^ 32 * ((lane (readV v (r.toNat + 1) w.cl) l).toNat % 2 ^ 16)

/-- Write a 48-bit value per lane to a register pair: bits [31:0], and [47:32] sign-extended (R63). -/
def putWide (c at_ v : Nat) (vd : BitVec 5) (mask : W32) (f : Nat → Int) (w : Work) : Work :=
  putV c at_ v (vd.toNat + 1) (mkLanes (fun l => (BitVec.ofInt 48 (f l)).extractLsb' 32 16 |>.signExtend 32)) mask
    (putV c at_ v vd.toNat (mkLanes (fun l => (BitVec.ofInt 48 (f l)).extractLsb' 0 32)) mask w)

/-- Whether a register number may start a pair (R127). -/
def isEven (r : BitVec 5) : Bool := r.toNat % 2 == 0

/-- WADD and WSUB: 48-bit results in three lc; odd registers are reserved (R60, R127). -/
def wideOp (c v : Nat) (vd va vb : BitVec 5) (m : BitVec 3) (f : Int → Int → Int) (s : State) : Out :=
  vecCmd c v (fun now w =>
    if isEven vd && isEven va && isEven vb then
      putWide c (now + 3) v vd (vm v w m) (fun l => f (wideAt v w va l) (wideAt v w vb l)) w
    else vecIllegal c v w) s

/-! ## Reductions -/

/-- One level of the lane tree (R64). -/
def treeLevel (f : FRes → FRes → FRes) : List FRes → List FRes
  | a :: b :: t => f a b :: treeLevel f t
  | t => t

/-- The lane tree of five levels (R64). -/
def laneTree (f : FRes → FRes → FRes) (xs : List FRes) : FRes :=
  ((treeLevel f (treeLevel f (treeLevel f (treeLevel f (treeLevel f xs))))).head?).getD { bits := 0, nan := false, ovf := false }

/-- A node of the tree: the result, with the overflows of the nodes below it. -/
def treeNode (f : W32 → W32 → FRes) (a b : FRes) : FRes :=
  let r := f a.bits b.bits
  { r with ovf := a.ovf || b.ovf || r.ovf }

/-- RSUM, RMIN, RMAX: masked lanes enter as the identity, lane 0 is always written, one event at most (R60, R64). -/
def reduceOp (c v : Nat) (vd va : BitVec 5) (m : BitVec 3) (ident : W32) (f : W32 → W32 → FRes) (s : State) : Out :=
  vecCmd c v (fun now w =>
    let mask := vm v w m
    let r := laneTree (treeNode f) ((List.range 32).map (fun l =>
      { bits := if mask.getLsbD l then lane (vr v w va) l else ident, nan := false, ovf := false }))
    (putV c (now + 10) v vd.toNat (mkLanes (fun _ => r.bits)) 1 w).on
      (laterNum (now + 10) (b2n (f32 r.bits).isNaN) (b2n (overflowed r)) 0)) s

/-! ## Addresses -/

/-- Bytes of a vector access by its WIDTH code; none when reserved (R129). -/
def vecWidth (x : BitVec 3) : Option Nat :=
  match x.toNat with
  | 0 => some 8
  | 1 => some 32
  | 2 => some 64
  | 3 => some 128
  | _ => none

/-- The address of a vector access in the current REP iteration; none below zero (R129). -/
def vecAddr (v : Nat) (x : VAddr) (w : Work) : Option Nat :=
  let core := vecCore v w.cl
  let i : Int := if 0 < core.repLeft then core.repIter else 0
  let a : Int := x.addr.toNat + 8 * i * x.step.toInt
  if a < 0 then none else some a.toNat

end Sys2Proof.Machine
end

