-- ==== Sys2Proof/Machine/VecConv.lean ====
section
/-! DEFINITION. Conversions, the seeded generator, and the sign-count unit (R46, R47, R53 to R55, R70 to R73, R77,
R78, R128). -/

namespace Sys2Proof.Machine

/-! ## The generator -/

/-- mix of R77. -/
def mix32 (h : W32) : W32 :=
  let h := h ^^^ (h >>> 16)
  let h := h * 0x2C1B3C6D
  let h := h ^^^ (h >>> 15)
  let h := h * 0x297A2D39
  h ^^^ (h >>> 16)

/-- The generator word for a state and a logical index (R77). -/
def genWord (g : GenState) (idx : BitVec 48) : W32 :=
  let a := idx.extractLsb' 0 32 ^^^ g.seed.extractLsb' 0 32 ^^^ 0x4D2C61B7
  let b := g.tid ^^^ g.seed.extractLsb' 32 32 ^^^ 0x93A50E1F
  let c := g.step.extractLsb' 0 32 ^^^ 0x6F17C245 ^^^ (idx.extractLsb' 32 16 ++ g.step.extractLsb' 32 16)
  mix32 (mix32 (mix32 a ^^^ b) ^^^ c)

/-- The draw for element i of a contiguous draw (R70, R78). -/
def drawAt (g : GenState) (i : Nat) : W32 := genWord g (g.ibase + BitVec.ofNat 48 i)

/-- The rounding shift of element i: nearest even, or stochastic with the element's draw (R53, R54). -/
def roundBy (stoch : Bool) (g : GenState) (i : Nat) : Nat → Nat → Nat :=
  if stoch then stochShift ((drawAt g i).toNat % 65536) else rneShift

/-- IBASE advances by 32 for instructions issued in the next lc or later (R78). -/
def advance (now v : Nat) (yes : Bool) (w : Work) : Work := if yes then w.on (later (now + 1) (.adv v)) else w

/-! ## Element-wise conversion -/

/-- An element-wise conversion's element: FP32, BF16, E4M3, E5M2, INT32 (R70, R128). -/
def cvtElem (src dst : Nat) (shift : Nat → Nat → Nat) (x : Nat) : CRes :=
  if src = 2 ∧ dst = 0x0C then
    let r := toInt32 (f32 (BitVec.ofNat 32 x))
    { code := r.1.toNat, nan := false, inf := false, sat := r.2 }
  else if src = 0x0C then { code := (ofInt32 (BitVec.ofNat 32 x)).toNat, nan := false, inf := false, sat := false }
  else if dst = 2 then
    let r := roundF32 (elemVal src x)
    { code := r.bits.toNat, nan := r.nan, inf := r.ovf, sat := false }
  else toNarrow dst shift (f32 (BitVec.ofNat 32 x))

/-- Whether a format is BF16, E4M3 or E5M2. -/
def isNarrow (f : Nat) : Bool := f == 1 || f == 3 || f == 4

/-- Whether CVT names a conversion of R128. -/
def cvtOk (src dst rm : Nat) : Bool :=
  ((src == 2 && isNarrow dst && decide (rm ≤ 1)) || (isNarrow src && dst == 2 && rm == 0) ||
    (src == 2 && dst == 0x0C && rm == 0) || (src == 0x0C && dst == 2 && rm == 0))

/-- Pack 32 element codes at the low end of a register, the unused bytes zero (R44, R128). -/
def packReg (w : Nat) (codes : List Nat) : Lanes := lanesOf (toLe 128 (packBits w codes))

/-- The destination lane of element i of `w` bits. -/
def destLane (w i : Nat) : Nat := w * i / 32

/-- Events of elements whose destination lane is active (R59; log entry 21). -/
def countElems (w : Nat) (mask : W32) (f : CRes → Bool) (rs : List CRes) : Nat :=
  (rs.zipIdx.filter (fun p => mask.getLsbD (destLane w p.2) && f p.1)).length

/-- CVT: an element-wise conversion of 32 elements, four lc (R60, R70, R128). -/
def execCvt (c v : Nat) (vd va : BitVec 5) (m : BitVec 3) (src dst : BitVec 4) (rm : BitVec 2) (s : State) : Out :=
  vecCmd c v (fun now w =>
    if cvtOk src.toNat dst.toNat rm.toNat = false then vecIllegal c v w
    else
      let g := (vecCore v w.cl).gen
      let bytes := lanesBytes (vr v w va)
      let wd := fmtWidth dst.toNat
      let mask := vm v w m
      let rs := (List.range 32).map (fun i =>
        cvtElem src.toNat dst.toNat (roundBy (rm == 1) g i) (elemAt src.toNat bytes i))
      (advance now v (rm == 1) (putV c (now + 4) v vd.toNat (packReg wd (rs.map (fun r => r.code))) mask w)).on
        (laterNum (now + 4) (countElems wd mask (fun r => r.nan) rs) (countElems wd mask (fun r => r.inf) rs)
          (countElems wd mask (fun r => r.sat) rs))) s

/-! ## MX blocks -/

/-- The scale register of CVTMX: the scale in lane 0, the other lanes zero (R127; log entry 22). -/
def scaleReg (x : Nat) : Lanes := mkLanes (fun l => if l = 0 then BitVec.ofNat 32 x else 0)

/-- CVTMX: 32 FP32 lanes to an MX block in VD with its scale in VC, six lc (R46, R60, R70, R128). -/
def execCvtmx (c v : Nat) (vd va vc : BitVec 5) (m : BitVec 3) (dst : BitVec 4) (rm : BitVec 2) (s : State) : Out :=
  vecCmd c v (fun now w =>
    if isMx dst.toNat = false ∨ 2 ≤ rm.toNat then vecIllegal c v w
    else
      let g := (vecCore v w.cl).gen
      let mask := vm v w m
      let wd := mxWidth dst.toNat
      let r := toMx dst.toNat (fun i => roundBy (rm == 1) g i) ((vr v w va).map f32)
      let sat (i : Nat) : Bool := mask.getLsbD (destLane wd i) && r.2.2.2.contains i
      (advance now v (rm == 1)
        (putV c (now + 6) v vc.toNat (scaleReg r.1) mask
          (putV c (now + 6) v vd.toNat (packReg wd r.2.1) mask w))).on
        (laterNum (now + 6) (b2n (r.2.2.1 && mask.getLsbD 0)) 0 ((List.range 32).filter sat).length)) s

/-- CVTXF: an MX block in VA with its scale in lane 0 of VB to FP32, six lc (R60, R70, R128). -/
def execCvtxf (c v : Nat) (vd va vb : BitVec 5) (m : BitVec 3) (src : BitVec 4) (s : State) : Out :=
  vecCmd c v (fun now w =>
    if isMx src.toNat = false then vecIllegal c v w
    else
      let bytes := lanesBytes (vr v w va)
      let sc := scaleVal ((lane (vr v w vb) 0).toNat % 256)
      putF c now 6 v vd (vm v w m) (fun l => roundF32 ((elemVal src.toNat (elemAt src.toNat bytes l)).mul sc)) w) s

/-! ## Grid integers and sign bits -/

/-- Whether a value is finite and above zero (R71). -/
def posFinite (x : FVal) : Bool := x.finite && !x.isZero && !x.negative

/-- CVTG: FP32 with the scale in lane 0 of VB to a 48-bit grid integer in a register pair, four lc; any other scale
is a fatal carry fault (R60, R70, R71). -/
def execCvtg (c v : Nat) (vd va vb : BitVec 5) (m : BitVec 3) (s : State) : Out :=
  vecCmd c v (fun now w =>
    let sc := f32 (lane (vr v w vb) 0)
    let mask := vm v w m
    let rs := (List.range 32).map (fun l => toGrid (f32 (lane (vr v w va) l)) sc)
    let res (l : Nat) : Int × Bool := rs.getD l (0, false)
    if isEven vd = false then vecIllegal c v w
    else if posFinite sc = false then w.fail c cCarryScale (12 + v)
    else
      (putWide c (now + 4) v vd mask (fun l => (res l).1) w).on
        (laterNum (now + 4) 0 0 (countLanes mask (fun l => (res l).2)))) s

/-- CVTS: the sign bits of VA to a mask register, four lc (R55, R60, R70). -/
def execCvts (c v : Nat) (vd va : BitVec 5) (m : BitVec 3) (s : State) : Out :=
  vecCmd c v (fun now w =>
    if 8 ≤ vd.toNat then vecIllegal c v w
    else putM c (now + 4) v vd.toNat (maskBits (fun l => (f32 (lane (vr v w va) l)).negative)) (vm v w m) w) s

/-- CVTSF: −1.0 where the bit of the mask register is 1, else +1.0, four lc (R43, R60, R70). -/
def execCvtsf (c v : Nat) (vd va : BitVec 5) (m : BitVec 3) (s : State) : Out :=
  vecCmd c v (fun now w =>
    if 8 ≤ va.toNat then vecIllegal c v w
    else
      putV c (now + 4) v vd.toNat
        (mkLanes (fun l => if (readM v va.toNat w.cl).getLsbD l then 0xBF800000 else 0x3F800000)) (vm v w m) w) s

/-! ## Sign count -/

/-- The update of one lane (R72, R73): e_new, c_new, and whether the lane was reset. -/
def signCount (g e c sb : W32) : W32 × W32 × Bool :=
  let a := fadd32 g e
  let av := f32 a.bits
  if av.finite then
    let neg := av.negative
    let step := if neg then fadd32 a.bits sb else fsub32 a.bits sb
    (step.bits, (if neg then c - 1 else c + 1), false)
  else (0, c + 1, true)

/-- Whether a sign-count scale is finite and not below zero (R73). -/
def scntScaleOk (x : FVal) : Bool := x.finite && !x.negative

/-- SCNT: e_new to VD and c_new to VC from g, e and c with the scale in lane 0 of a register, six lc (R60, R72,
R73). -/
def execScnt (c v : Nat) (vd va vb vc sreg : BitVec 5) (m : BitVec 3) (s : State) : Out :=
  vecCmd c v (fun now w =>
    let sb := lane (vr v w sreg) 0
    let mask := vm v w m
    let rs := (List.range 32).map (fun l =>
      signCount (lane (vr v w va) l) (lane (vr v w vb) l) (lane (vr v w vc) l) sb)
    let res (l : Nat) : W32 × W32 × Bool := rs.getD l (0, 0, false)
    if scntScaleOk (f32 sb) = false then w.fail c cCarryScale (12 + v)
    else
      (putV c (now + 6) v vc.toNat (mkLanes (fun l => (res l).2.1)) mask
        (putV c (now + 6) v vd.toNat (mkLanes (fun l => (res l).1)) mask w)).on
        (count (fun k => { k with scReset := satAdd k.scReset (countLanes mask (fun l => (res l).2.2)) }))) s

end Sys2Proof.Machine
end

