-- ==== Sys2Proof/Machine/VecMem.lean ====
section
/-! DEFINITION. Digest folding, generator state and draws, vector loads and stores, and the queues shared with the
matrix cores (R60 to R62, R74 to R78, R87, R94, R99, R127, R129). -/

namespace Sys2Proof.Machine

/-! ## The tile hash -/

/-- The multiplier M of R74. -/
def hashM : W128 := 0x3A6FB0C19D24E857C4B12F937E05A6DB

/-- K of R74 from TID, ROW, COL and FMT. -/
def hashK (tid row col fmt : Nat) : W128 := BitVec.ofNat 128 (tid * 2 ^ 96 + row * 2 ^ 72 + col * 2 ^ 48 + fmt * 2 ^ 40)

/-- One word of the tile hash: the term added to s for word i (R74). -/
def hashTerm (k : W128) (i w : Nat) : W128 :=
  let a := (k + BitVec.ofNat 128 i) ^^^ BitVec.ofNat 128 (w * 2 ^ 64 + w)
  let p := a * hashM
  p ^^^ (p >>> 64)

/-- The last steps of the tile hash (R74). -/
def hashEnd (s : W128) (n : Nat) : W128 :=
  let h := (s ^^^ BitVec.ofNat 128 n) * hashM
  h ^^^ (h >>> 64)

/-- Fold words from word number `i` on. -/
def hashFold (k : W128) : Nat → List Nat → W128 → W128
  | _, [], s => s
  | i, w :: ws, s => hashFold k (i + 1) ws (s + hashTerm k i w)

/-- The 64-bit words of a byte string padded with zeros to a multiple of 8 (R74). -/
def hashWords (bs : Bytes) : List Nat := (chunksB 8 (bs.length / 8 + 1) bs).map leNat

/-- The tile hash of R74: TID, ROW, COL, FMT and the stored bytes. -/
def tileHash (tid row col fmt : Nat) (bs : Bytes) : W128 :=
  let ws := hashWords bs
  hashEnd (hashFold (hashK tid row col fmt) 0 ws 0) ws.length

/-! ## Digest instructions -/

/-- The 16 words of a register: lanes 2j and 2j + 1 form word j, the low half in lane 2j (R76). -/
def foldWords (x : Lanes) : List Nat :=
  (List.range 16).map (fun j => (lane x (2 * j)).toNat + 2 ^ 32 * (lane x (2 * j + 1)).toNat)

/-- K of the tile in progress (R74). -/
def TileState.key (t : TileState) : W128 := hashK t.tid.toNat t.row.toNat t.col.toNat t.fmt.toNat

/-- Words `i` and on of a tile as they are hashed: those of an MXFP6 tile's payload past its 12,288 data bytes count as
zero, whatever they hold (R44). -/
def hashedWords (fmt : Nat) : Nat → List Nat → List Nat
  | _, [] => []
  | i, w :: ws => (if fmt = 6 ∧ 1536 ≤ i ∧ i < 2048 then 0 else w) :: hashedWords fmt (i + 1) ws

/-- Fold words into the tile in progress. -/
def TileState.fold (t : TileState) (ws : List Nat) : TileState :=
  { t with s := hashFold t.key t.words (hashedWords t.fmt.toNat t.words ws) t.s, words := t.words + ws.length }

/-- DBEGIN: TID, ROW, COL and FMT from lanes 0 to 3 of VA; a tile still in progress is discarded and counted in
DIG_ABANDON (R74, R76, R127). ROW and COL are 24 bits wide, FMT eight. -/
def execDbegin (c v : Nat) (va : BitVec 5) (s : State) : Out :=
  vecCmd c v (fun _ w =>
    let x := vr v w va
    let t : TileState :=
      { s := 0, tid := lane x 0, row := (lane x 1).setWidth 24 |>.setWidth 32, col := (lane x 2).setWidth 24 |>.setWidth 32,
        fmt := (lane x 3).setWidth 8 |>.setWidth 32, words := 0, inProg := true }
    (if (vecCore v w.cl).tile.inProg then w.on (count (fun k => { k with digAbandon := satAdd k.digAbandon 1 })) else w).on
      (updVec v (fun y => { y with tile := t }))) s

/-- DFOLD: fold the 16 words of VA (R76). -/
def execDfold (c v : Nat) (va : BitVec 5) (s : State) : Out :=
  vecCmd c v (fun _ w => w.on (updVec v (fun y => { y with tile := y.tile.fold (foldWords (vr v w va)) }))) s

/-- DFOLDT: fold the first CNT words of VA; CNT 0 is reserved (R76, R127). -/
def execDfoldt (c v : Nat) (va : BitVec 5) (cnt : BitVec 4) (s : State) : Out :=
  vecCmd c v (fun _ w =>
    if cnt = 0 then vecIllegal c v w
    else w.on (updVec v (fun y => { y with tile := y.tile.fold ((foldWords (vr v w va)).take cnt.toNat) }))) s

/-- DEND: finish the hash and add it into D twelve lc later (R60, R74, R76). -/
def execDend (c v : Nat) (s : State) : Out :=
  vecCmd c v (fun now w =>
    let t := (vecCore v w.cl).tile
    w.on (fun cl => later (now + 12) (.dig v (hashEnd t.s t.words))
      (updVec v (fun y => { y with tile := { y.tile with inProg := false } }) cl))) s

/-- Whether a DREAD address keeps R87: 16-byte aligned, in P-mem. -/
def digestOk (a : Nat) : Bool := a % 16 == 0 && decide (pBase ≤ a) && decide (a + 16 ≤ dataSize)

/-- DREAD: store D as 16 bytes, committing in lc c + 2 (R76, R87, R94, R129). -/
def execDread (c v : Nat) (x : VAddr) (s : State) : Out :=
  vecCmd c v (fun now w =>
    match vecAddr v x w with
    | none => vecIllegal c v w
    | some a =>
      if x.width ≠ 0 ∨ digestOk a = false then vecIllegal c v w
      else w.on (writeMem (now + 2) a (toLe 16 (vecCore v w.cl).dig.toNat) .narrow)) s

/-- DCLR: D := 0 at the end of the issue lc (R76). -/
def execDclr (c v : Nat) (s : State) : Out := vecCmd c v (fun now w => w.on (later (now + 1) (.dclr v))) s

/-! ## Generator -/

/-- Whether the load of a GLOAD of the core takes place in an lc (R117). -/
def gloadAt (now v : Nat) (cl : Cluster) : Bool :=
  cl.late.any (fun e => e.1 == now && (match e.2 with | .gread v' _ => v' == v | _ => false))

/-- GST: load the core's generator state from memory, in use from lc c + 6; a GLOAD whose load falls in the same lc is a
schedule collision (R60, R78, R117, R129); states of both that come into use in one lc are log entry 74. -/
def execGst (c v : Nat) (x : VAddr) (s : State) : Out :=
  vecCmd c v (fun now w =>
    match vecAddr v x w with
    | none => vecIllegal c v w
    | some a =>
      if x.width ≠ 0 ∨ okAccess a 32 = false then vecIllegal c v w
      else if guarded w.cl a 32 then w.fail c cScoreboard a
      else if gloadAt now v w.cl then w.fail c cCollision (12 + v)
      else delivered w (readMem c now a 32 w) (fun data w => w.on (later (now + 6) (.gen v (genOf data))))) s

/-- GDRAW: lane l := the word for IBASE + l, and IBASE advances by 32 when ADV is set; six lc (R60, R78). -/
def execGdraw (c v : Nat) (vd : BitVec 5) (m : BitVec 3) (adv : Bool) (s : State) : Out :=
  vecCmd c v (fun now w =>
    advance now v adv
      (putV c (now + 6) v vd.toNat (mkLanes (fun l => drawAt (vecCore v w.cl).gen l)) (vm v w m) w)) s

/-- GDRAWI: lane l := the word for IBASE + VA[l] (R78). -/
def execGdrawi (c v : Nat) (vd va : BitVec 5) (m : BitVec 3) (s : State) : Out :=
  vecCmd c v (fun now w =>
    putV c (now + 6) v vd.toNat (mkLanes (fun l => drawAt (vecCore v w.cl).gen (lane (vr v w va) l).toNat)) (vm v w m) w) s

/-! ## Loads and stores -/

/-- Lanes below a width in bytes. -/
def lanesBelow (n : Nat) : W32 := BitVec.ofNat 32 (2 ^ (n / 4) - 1)

/-- LD: lanes within WIDTH that the mask selects := memory, six lc (R60, R87, R99, R129). -/
def execLd (c v : Nat) (vd : BitVec 5) (m : BitVec 3) (x : VAddr) (s : State) : Out :=
  vecCmd c v (fun now w =>
    match vecWidth x.width, vecAddr v x w with
    | some n, some a =>
      if okAccess a n = false then vecIllegal c v w
      else if guarded w.cl a n then w.fail c cScoreboard a
      else
        let mask := vm v w m &&& lanesBelow n
        delivered w (readMem c now a n w) (fun data w => putV c (now + 6) v vd.toNat (lanesOf data) mask w)
    | _, _ => vecIllegal c v w) s

/-- ST: memory := the lanes of VA within WIDTH, committing in lc c + 2 (R87, R94, R99, R129). -/
def execSt (c v : Nat) (va : BitVec 5) (x : VAddr) (s : State) : Out :=
  vecCmd c v (fun now w =>
    match vecWidth x.width, vecAddr v x w with
    | some n, some a =>
      if okAccess a n = false then vecIllegal c v w
      else if guarded w.cl a n then w.fail c cScoreboard a
      else w.on (writeMem (now + 2) a ((lanesBytes (vr v w va)).take n) (if n = 8 then .narrow else .write))
    | _, _ => vecIllegal c v w) s

/-! ## Queues -/

/-- POP: the oldest entry of the matrix-to-vector queue into lanes 0–15 or 16–31 of VD, two lc; an empty queue is a
schedule collision (R60 to R62, R127). -/
def execPop (c v : Nat) (vd : BitVec 5) (m : BitVec 3) (half : Bool) (s : State) : Out :=
  vecCmd c v (fun now w =>
    match w.cl.mvq with
    | [] => w.fail c cCollision (12 + v)
    | row :: rest =>
      let part : W32 := if half then 0xFFFF0000 else 0x0000FFFF
      let data := lanesOf (if half then zeros 64 ++ row else row)
      putV c (now + 2) v vd.toNat data (vm v w m &&& part) (w.on (fun cl => { cl with mvq := rest }))) s

/-- PUSH: lanes 0–7 of VA to the vector-to-matrix queue of 64 entries; a full queue is a schedule collision (R61, R62,
R127). Nothing takes an entry out of that queue: no descriptor field selects it (log entry 76). -/
def execPush (c v : Nat) (va : BitVec 5) (s : State) : Out :=
  vecCmd c v (fun _ w =>
    if 64 ≤ w.cl.vmq.length then w.fail c cCollision (12 + v)
    else w.on (fun cl => { cl with vmq := cl.vmq ++ [(lanesBytes (vr v w va)).take 32] })) s

end Sys2Proof.Machine
end

