-- ==== Sys2Proof/Machine/Weir.lean ====
section
/-! DEFINITION. The commands of the weir net, the weir controller and the steward's part at weirs (R84, R152 to R171,
R178 to R181). A message or report of an event that has not taken place changes nothing (log entry 11). The steward
decides in the lc in which R164 lets it begin (log entry 31). -/

namespace Sys2Proof.Machine

/-! ## Messages of the weir net (R152, R153) -/

/-- Whether R100 holds for a weir in a cluster: every entry that it frees is done. -/
def rowsLanded (w : Nat) (cl : Cluster) : Bool := cl.sb.all (fun e => e.2.st != .armed || e.2.rel != w)

/-- A weir-token fault (R153, R155). -/
def tokenFault (c : Nat) (s : State) : State := fatal (weirFault cWeirToken c) s

/-- Whether a participant has issued the WEIR that a message names. -/
def hasArrived (s : State) (c w : Nat) : Bool := (clusterAt s c).arriveSent && (clusterAt s c).weirNum == w

/-- The first ARRIVE, and the due point with the last participant's (R152, R154). -/
def takeArrive (c : Nat) (s : State) : State :=
  let arrived := insertNat c s.weir.arrived
  let all := arrived.length == (participants s).length
  updWeir (fun w =>
    { w with arrived := arrived, due := if all then some s.lc else w.due,
             phase := if all ∧ w.phase = .beforeDue then .held else w.phase }) s

/-- A LANDED reaches the controller (R153); the last of them completes the participants' part. -/
def takeLanded (c : Nat) (s : State) : State :=
  let landed := insertNat c s.weir.landed
  let s := updWeir (fun w => { w with landed := landed }) s
  if landed.length = (participants s).length then noteLast rankArrival 0 0 s else s

/-- A message of the weir net (R152, R153): ignored from a cluster that is no participant, a token fault when it names
another weir than the one awaited or comes twice. -/
def message (c w : Nat) (seen : List Nat) (sent : Bool) (take : State → State) (s : State) : State :=
  if inRun s = false ∨ (participants s).contains c = false then s
  else
    match awaited s with
    | none => tokenFault c s
    | some e =>
      if e.num ≠ w ∨ seen.contains c = true then tokenFault c s
      else if gathers s ∧ sent = true then take s
      else s

/-- ARRIVE: a participant's message reaches the weir controller, in the lc in which the command comes (R153, R154; log entry
84). -/
def execArrive (c w : Nat) (s : State) : Out :=
  onPlace (isCluster c) (message c w s.weir.arrived (hasArrived s c w) (takeArrive c) s)

/-- LANDED: sent once every entry freed at the weir is done, not before ARRIVE (R100, R153). -/
def execLanded (c w : Nat) (s : State) : Out :=
  onPlace (isCluster c)
    (message c w s.weir.landed (hasArrived s c w && rowsLanded w (clusterAt s c))
      (fun s => updCluster c (fun cl => { cl with landedSent := true }) (takeLanded c s)) s)

/-- CONDITION_LATCH: the controller latches an external condition that its unit reports as holding (R163). -/
def execConditionLatch (deferred : Bool) (i : Nat) (s : State) : Out :=
  .next (if deferred then latchDeferred i s else latchOwn i s)

/-- RELEASE: the awaited weir releases in the lc that follows the last of its events; the command lets lc pass to the end
of that one (R154). -/
def execRelease (s : State) : Out :=
  .next
    (match awaited s with
     | none => s
     | some e =>
       if readyToRelease s e = false then s
       else if s.weir.lastLc < s.lc then tick s
       else ticks 2 s)

/-- SLUICE_DRAINED: a draining sluice without waiting tiles becomes closed (R253). -/
def execSluiceDrained (d i : Nat) (s : State) : Out :=
  onPlace (decide (d < 12) && decide (i < 32768))
    (let x := sluiceAt s (sluiceKey d i)
     if isSafe s = true ∨ x.st ≠ .draining ∨ (ringAt s d).waiting.any (fun t => t.sluice == i) = true then s
     else updSluice (sluiceKey d i) (fun x => { x with st := .closed }) s)

/-- RESUME: 128 lc after a release every cluster, router, gate and scoreboard resumes in one lc (R154); the command lets
lc pass to the next resume. -/
def execResume (s : State) : Out :=
  .next
    (match s.weir.resumes with
     | [] => s
     | p :: _ => if inRun s then advanceTo p.at_ s else s)

/-! ## The sentinel routine (R84, R179) -/

/-- V0 and the scratch range after the routine: V0's vector registers, its masks m1 to m7, and bytes 0x0000 to 0x1FEF of
the range, with the values of the ROM level (R179). -/
def sentinelWrites (cl : Cluster) : Cluster :=
  let x := vecCore 0 cl
  let v := (List.range 32).foldl (fun v r => Tab.set Lanes.zero v r (mkLanes (fun l => Config.sentinelReg (32 * r + l)))) x.v
  let m := (List.range 7).foldl (fun m r => Tab.set 0 m (r + 1) (Config.sentinelMask (r + 1))) x.m
  let a := sentScratch cl
  { setVec 0 { x with v := v, m := m } cl with
    mem := Mem.write 0 cl.mem a ((List.range 0x1FF0).map Config.sentinelScratch),
    upsets := healGranules a 0x1FF0 cl.upsets }

/-- Whether S0 of a cluster stands at its resumed sentinel weir (R118, R179). -/
def atSentinel (s : State) (c : Nat) : Bool :=
  let cl := clusterAt s c
  inRun s && (participants s).contains c && cl.weirSent && cl.s0.st == .atWeir && !cl.arriveSent

/-- The expected digest of a cluster, read from its scratch range through the correction stage (R91, R179). -/
def readExpected (c : Nat) (w : Work) : Nat × Work :=
  let a := sentScratch w.cl + 0x1FF0
  (leNat (Mem.read 0 w.cl.mem a 16), correct c (granules a 16) w)

/-- The routine's end in its cluster: its writes, the comparison with the expected digest, and S0 goes on (R179). -/
def sentinelEnds (c : Nat) (hash : W128) (w : Work) : Work :=
  delivered w (readExpected c w) (fun want w =>
    let w := w.on (fun cl => { sentinelWrites cl with s0 := { cl.s0 with st := .issuing }, weirSent := false })
    if hash.toNat = want then w else w.fail c cSentinel 0)

/-- SENTINEL_ROUTINE: the ROM routine ends 2,880 lc after the resume; its hash, which the command carries because the ROM's
operands and the shape of its product are not given (R83; log entry 10), is compared with the expected digest in the scratch
range, and a difference is a fatal fault (R84, R179). -/
def execSentinelRoutine (c : Nat) (hash : W128) (s : State) : Out :=
  onPlace (isCluster c)
    (if atSentinel s c then
       let t := advanceTo (clusterAt s c).s0.ready s
       if inRun t then settle c (sentinelEnds c hash { cl := clusterAt t c, bad := [] }) t else t
     else s)

/-! ## Relay and decision (R164, R168, R171) -/

/-- The conditions of R168 for a relay, apart from the time since the due point. They count the weir's own conditions; one
inherited from the weir before counts in none of them and cannot be deferred again (DESIGN CHOICE, log entry 97). -/
def relayOpen (s : State) (e : WeirEntry) : Bool :=
  gathers s && e.relay && !s.weir.relayDis && s.weir.due.isSome && s.weir.landed.length == (participants s).length &&
    (openConds s e).all (defers e) && !(openConds s e).isEmpty

/-- RELAY_ELIGIBLE: RELAY_AFTER has passed and only deferred conditions are outstanding (R168). -/
def execRelayEligible (s : State) : Out :=
  .next
    (match awaited s with
     | none => s
     | some e => if relayOpen s e then updWeir (fun w => { w with eligible := true }) s else s)

/-- RELAY_CHOICE: the steward posts the relay choice; it lapses when the last deferred condition has latched (R164,
R168, R171). -/
def execRelayChoice (s : State) : Out :=
  .next
    (match awaited s with
     | none => s
     | some e =>
       if s.weir.eligible = false ∨ s.weir.relayPosted = true ∨ relayOpen s e = false then s
       else noteLast rankDecision 0xF 0 (updWeir (fun w => { w with relayPosted := true }) s))

/-! ## Digests (R178, R246) -/

/-- The record an index of an empty digest log reads as. -/
def DigestRec.zero : DigestRec := { digest := 0, tid := 0, weir := 0, step := 0 }

/-- The payload of a DIGEST control frame (R246). -/
def digestPayload (r : DigestRec) : Bytes :=
  toLe 4 r.tid.toNat ++ toLe 2 r.weir ++ zeros 2 ++ toLe 8 r.step ++ toLe 16 r.digest.toNat

/-- Append a digest record, and send it on every port that carries digests (R178, R246). -/
def logDigest (r : DigestRec) (s : State) : State :=
  let s := { s with logs := { s.logs with
      digests := Tab.set DigestRec.zero s.logs.digests (s.logs.digestCount % 8192) r,
      digestCount := s.logs.digestCount + 1 } }
  ((s.ports.filter (fun e => e.2.digestTx)).map Prod.fst).foldl (fun s p => postControl p 5 (digestPayload r) 0 s) s

/-- One digest read at an address of a participant (R92, R178). -/
def readDigest (e : WeirEntry) (g : DigRead) (s : State) : State :=
  let c := cnum g.x g.y
  let w := correct c (granules g.addr 16) { cl := clusterAt s c, bad := [] }
  let r : DigestRec :=
    { digest := BitVec.ofNat 128 (leNat (Mem.read 0 w.cl.mem g.addr 16)), tid := g.tid, weir := e.num, step := s.runBlk.step }
  let s := setCluster c w.cl s
  match w.bad with
  | [] => logDigest r s
  | f :: _ => fatal f s

/-- DIGEST_READ: from the due point the steward makes the weir's digest reads in order; with the last the decision is
complete (R164, R178). -/
def execDigestRead (i : Nat) (s : State) : Out :=
  .next
    (match awaited s with
     | none => s
     | some e =>
       match e.digs[i]? with
       | none => s
       | some g =>
         if gathers s = false ∨ s.weir.due = none ∨ s.weir.digsDone ≠ i then s
         else
           let t := readDigest e g s
           if inRun t = false then t
           else
             let t := updWeir (fun w => { w with digsDone := i + 1 }) t
             if i + 1 = e.digs.length then noteLast rankDecision 0xF 0 t else t)

/-! ## Deadline and end (R161, R165) -/

/-- What the event log names at an expiry (R165): the weir, every condition that is not latched, every participant whose
ARRIVE or LANDED is missing, one record each (log entry 66). -/
def deadlineFaults (s : State) (e : WeirEntry) : List FaultRec :=
  let cond (deferred : Bool) (i : Nat) (c : Cond) : FaultRec :=
    weirFault cWeirDeadline (2 ^ 60 + 2 ^ 59 * b2n deferred + 2 ^ 52 * i + 2 ^ 48 * c.kind + c.obj)
  (openConds s e).filterMap (fun i => (e.conds[i]?).map (cond false i)) ++
    (s.weir.deferred.filter (fun d => !d.latched)).map (fun d => cond true d.index d.cond) ++
    (participants s).filterMap (fun c =>
      let a := s.weir.arrived.contains c
      let l := s.weir.landed.contains c
      if a && l then none
      else some (weirFault cWeirDeadline (2 ^ 61 + 2 ^ 59 * b2n (!a) + 2 ^ 58 * b2n (!l) + c)))

/-- WEIR_DEADLINE: the counted time since the first ARRIVE reaches DEADLINE before the release; when the release falls in
the same lc, or the last event it waits for, it takes place; HOLD pauses the count (R165, R342). -/
def execWeirDeadline (s : State) : Out :=
  .next
    (match awaited s with
     | none => s
     | some e =>
       if gathers s = false ∨ (s.weir.arrived = [] ∧ s.weir.due = none) ∨ s.weir.hold = true then s
       else
         let u := latchAll s
         if readyToRelease u e then s
         else endLc (weirFault cWeirDeadline e.num :: deadlineFaults u e) (updWeir (fun w => { w with phase := .expired }) u))

/-- The audit of every transfer queue at the end of a run (R407). -/
def auditQueues (s : State) : State :=
  match s.queues.find? (fun e => !tqCountsOk e.2) with
  | some e => fatal (ringFault cTqError (e.1 / 2048) 0) s
  | none => s

/-- RUN_END: 128 lc after the final release, and with no shard check pending, the engine returns to configured-idle, and
the run block is forgotten (R160, R161, R177, R216, R340, R407). -/
def execRunEnd (s : State) : Out :=
  .next
    (if inRun s && s.weir.phase == .released && decide (weirCount s ≤ s.weir.relIx + 1) then
       (let t := applyWrites (advanceTo (s.weir.relLc + 128) s)
        if inRun t = false ∨ checksPending t = true then t
        else
          let t := logEvent 0x0406 0 0 0 (toLe 8 t.runBlk.step) t
          let t := raiseMsix 3
            { t with dev := { t.dev with st := .configured }, runBlk := RunBlock.reset,
                     weir := { t.weir with phase := .noRun, hostRecs := [], deferred := [], decided := false, due := none } }
          auditQueues (audit t))
     else s)

/-! ## The weir registers (R167) -/

/-- HOLD takes a value: the decision for a weir before its due point is withdrawn, and posted again when HOLD returns to
0 (R164). -/
def setHold (v : Bool) (s : State) : State :=
  let s := updWeir (fun w => { w with hold := v }) s
  if inRun s = false ∨ s.weir.await = weirCount s then s
  else if v then (if s.weir.due = none then updWeir (fun w => { w with decided := false }) s else s)
  else if s.weir.decided then s
  else noteLast rankDecision 0xF 0 (updWeir (fun w => { w with decided := true }) s)

/-- RELAY_DIS takes a value (R167, R168). -/
def setRelayDis (v : Bool) : State → State := updWeir (fun w => { w with relayDis := v })

/-- WEIR_CTRL.HOLD (R164, R167). -/
def execHold (v : Bool) (s : State) : Out := .next (if mailboxUp s then setHold v s else s)

/-- WEIR_CTRL.RELAY_DIS (R167, R168). -/
def execRelayDis (v : Bool) (s : State) : Out := .next (if mailboxUp s then setRelayDis v s else s)

end Sys2Proof.Machine
end

