-- ==== Sys2Proof/Machine/HostCmd.lean ====
section
/-! DEFINITION. The mailbox commands on lists, transfer queues, sluices, keys, ports, time and logs (R217, R218, R241,
R249, R260, R264, R340, R344, R345). -/

namespace Sys2Proof.Machine

/-! ## Migration lists (R218, R340) -/

/-- A migration entry from its 16 bytes (R218). -/
def migEntryOf (b : Bytes) : MigEntry :=
  let x := leNat b
  { op := bits x 127 124, htier := bits x 123 122, acct := bits x 121 116, count := bits x 115 100, unit := bits x 76 48,
    loc := bits x 47 0 }

/-- Whether the fields of a migration entry keep R218: the operation defined, unused and reserved fields zero. -/
def migEntryOk (b : Bytes) : Bool :=
  let e := migEntryOf b
  let slots := e.op == 1 || e.op == 5 || e.op == 6
  decide (1 ≤ e.op) && decide (e.op ≤ 8) && bits (leNat b) 99 77 == 0 &&
    (if e.op = 7 then e.htier == 2 || e.htier == 3 else e.htier == 0) && (slots || e.op == 7 || e.acct == 0) &&
    (if slots then bits e.loc 47 27 == 0 else e.op == 7 || e.loc == 0)

/-- The 16-byte entries of a list from an offset on. -/
def entriesAt (pl : Bytes) (off n : Nat) : List Bytes := (List.range n).map (fun i => sliceB pl (off + 16 * i) 16)

/-- MIG_POST: a host list joins the host queue (R217, R219, R340). -/
def execMigPost (pl : Bytes) (s : State) : Out :=
  vendor 0xC110 false listStates (fun s =>
    let l := fieldB pl 0 2
    let n := fieldB pl 4 4
    if l < 32768 ∨ zeroB pl 2 2 = false ∨ 4095 < n then reply .range [] s
    else
      let es := entriesAt pl 8 n
      if es.all migEntryOk = false then reply .range [] s
      else if s.tier.hostQ.any (fun m => m.list == l) then reply .duplicate [] s
      else reply .ok [] (startMig true l (es.map migEntryOf) s)) s

/-- Code of a list state (R231). -/
def listStCode : ListSt → Nat
  | .idle => 0
  | .queued => 1
  | .executing => 2
  | .complete => 3
  | .stopped => 4

/-- MIG_STATUS: the state of a list (R220, R231, R340). -/
def execMigStatus (pl : Bytes) (s : State) : Out :=
  vendor 0xC111 true allStates (fun s =>
    let r := listRec s (fieldB pl 0 2)
    reply .ok (toLe 4 (listStCode r.st) ++ toLe 4 r.next ++ toLe 4 r.cause ++ toLe 4 r.unit) s) s

/-! ## Transfer queues (R260, R264, R344) -/

/-- Descriptors of a host queue that have not completed (R260). -/
def openDescs (q : Queue) : Nat := q.descs.length + q.running.length

/-- Whether a tag is pending, running or among the last 4,096 completions of a queue (R264). -/
def tagKnown (q : Queue) (tag : W32) : Bool :=
  q.descs.any (fun d => d.tag == tag) || q.running.any (fun r => r.desc.tag == tag) || q.recent.any (fun e => e.1 == tag)

/-- A host descriptor as it is posted: its bytes judged and numbered (R258, R260, R262). -/
def hostDesc (b : Bytes) (q : Queue) : Desc :=
  { descOf true b with ok := descBytesOk b && !bit (fieldB b 1 1) 1, no := q.started + q.descs.length }

/-- Post descriptors in order: the queue, the mask of duplicates, the number accepted and whether the queue was full
(R264, R344). -/
def postDescs : List Bytes → Nat → Queue → Queue × Nat × Nat × Bool
  | [], _, q => (q, 0, 0, false)
  | b :: bs, i, q =>
    let d := hostDesc b q
    if tagKnown q d.tag then
      let r := postDescs bs (i + 1) { q with dup := satAdd q.dup 1 }
      (r.1, 2 ^ i + r.2.1, r.2.2.1, r.2.2.2)
    else if 256 ≤ openDescs q then (q, 0, 0, true)
    else
      let r := postDescs bs (i + 1) { q with descs := q.descs ++ [d] }
      (r.1, r.2.1, r.2.2.1 + 1, r.2.2.2)

/-- Whether the fields of a TQ_POST are in range (R344). -/
def postInRange (s : State) (pl : Bytes) : Bool :=
  let k := fieldB pl 0 2
  let n := fieldB pl 2 1
  decide (k < 24576) && !(queueAt s k).manifest && k % 1024 != 1023 && decide (1 ≤ n) && decide (n ≤ 64) && zeroB pl 3 1 &&
    decide (fieldB pl 4 4 < 2 ^ 29) &&
    (openDescs (queueAt s k) == 0 || fieldB pl 4 4 == (queueAt s k).cring)

/-- TQ_POST: host descriptors join a queue (R260, R264, R344). -/
def execTqPost (pl : Bytes) (s : State) : Out :=
  vendor 0xC112 false workStates (fun s =>
    if postInRange s pl = false then reply .range [] s
    else
      let k := fieldB pl 0 2
      let bs := (List.range (fieldB pl 2 1)).map (fun i => sliceB pl (8 + 64 * i) 64)
      let q := queueAt s k
      let r := postDescs bs 0 { q with cring := fieldB pl 4 4 }
      reply (if r.2.2.2 then .full else .ok) (toLe 8 r.2.1 ++ toLe 1 r.2.2.1) (updQueue k (fun _ => r.1) s)) s

/-! ## Host sluices (R252, R253, R345) -/

/-- Bits of a ring die's bitmap pool (R252). -/
def poolBits : Nat := 2 ^ 25

/-- The bitmaps in use on a ring die: first bit and length. -/
def bitmapsOf (s : State) (d : Nat) : List (Nat × Nat) :=
  (s.sluices.filter (fun e => e.1 / 32768 == d && e.2.present)).map (fun e => (e.2.bmap, e.2.count))

/-- Whether a bitmap fits in the pool beside others. -/
def bitmapFree (us : List (Nat × Nat)) (b n : Nat) : Bool :=
  decide (b + n ≤ poolBits) && us.all (fun u => decide (b + n ≤ u.1) || decide (u.1 + u.2 ≤ b))

/-- The lowest free place for a bitmap: at the start of the pool, or behind one in use (log entry 37). -/
def findBitmap (us : List (Nat × Nat)) (n : Nat) : Option Nat :=
  ((0 :: us.map (fun u => roundUp (u.1 + u.2) 64)).filter (fun b => bitmapFree us b n)).min?

/-- A host sluice as SLUICE_OPEN opens it: TARGET 1, KIND 0, VSRC 1 with the command's VERSION under GATE (R345). -/
def hostSluice (pl : Bytes) (bmap : Nat) : Sluice :=
  let fl := fieldB pl 1 1
  let count := fieldB pl 4 4
  { Sluice.reset with
    present := true, units := true, host := true, tee := bit fl 1, vsrc := b2n (bit fl 0),
    version := if bit fl 0 then fieldB pl 16 6 else 0, count := count, tid := BitVec.ofNat 32 (fieldB pl 8 4),
    firstUnit := fieldB pl 12 4, bmap := bmap, st := if count = 0 then .complete else .opened }

/-- Whether the fields of a SLUICE_OPEN are in range (R340, R345). -/
def openInRange (pl : Bytes) : Bool :=
  decide (fieldB pl 0 1 < 12) && decide (fieldB pl 1 1 < 4) && decide (fieldB pl 2 2 < 32768) &&
    decide (fieldB pl 4 4 ≤ 65536) && decide (fieldB pl 12 4 + fieldB pl 4 4 ≤ 2 ^ 29) && zeroB pl 22 2

/-- SLUICE_OPEN: a host sluice opens with a bitmap from the free pool, and requests held for it are examined again (R278,
R345). -/
def execSluiceOpen (pl : Bytes) (s : State) : Out :=
  vendor 0xC113 false workStates (fun s =>
    let d := fieldB pl 0 1
    let k := sluiceKey d (fieldB pl 2 2)
    if openInRange pl = false then reply .range [] s
    else if (sluiceAt s k).present then reply .state [] s
    else
      match findBitmap (bitmapsOf s d) (fieldB pl 4 4) with
      | none => reply .full [] s
      | some b =>
        let s := updSluice k (fun _ => hostSluice pl b) s
        reply .ok (toLe 4 b) (reexamine d (fieldB pl 2 2) s)) s

/-- SLUICE_CLOSE: a host sluice closes; its index and bitmap are free again, and a frame in progress still goes to its unit
(R253, R255, R340). -/
def execSluiceClose (pl : Bytes) (s : State) : Out :=
  vendor 0xC114 false workStates (fun s =>
    let d := fieldB pl 0 1
    let k := sluiceKey d (fieldB pl 2 2)
    if 12 ≤ d ∨ zeroB pl 1 1 = false ∨ 32768 ≤ fieldB pl 2 2 ∨ (sluiceAt s k).host = false then reply .range [] s
    else reply .ok [] (updSluice k (fun _ => Sluice.reset) (detachSluices (· == k) (closeSluice k s)))) s

/-! ## Keys and ports (R241, R249, R340) -/

/-- The ports named by a 24-bit mask. -/
def maskPorts (m : Nat) : List Nat := (List.range 24).filter (fun p => bit m p)

/-- Put a key in a port's slot for its epoch (R249). -/
def putKey (k : KeySlot) (q : Port) : Port := if k.epoch.getLsbD 0 then { q with key1 := some k } else { q with key0 := some k }

/-- Whether the slot for an epoch holds the key of a port's current epoch (R340). -/
def keyInForce (q : Port) (epoch : BitVec 8) : Bool :=
  epoch.getLsbD 0 == q.epoch.getLsbD 0 && (keySlot q q.epoch).isSome

/-- KEY_LOAD: a sealed-mode key goes into the slot of EPOCH bit 0 on the named ports; only over a protected mailbox, and
not over the key in force during a run (R249, R340). -/
def execKeyLoad (pl : Bytes) (s : State) : Out :=
  vendor 0xC115 false workStates (fun s =>
    let ps := maskPorts (fieldB pl 0 3)
    let k : KeySlot :=
      { epoch := BitVec.ofNat 8 (fieldB pl 3 1), key := sliceB pl 4 32, saltTx := sliceB pl 36 4, saltRx := sliceB pl 40 4 }
    if s.cxl.ide = false then reply .notIde [] s
    else if inRun s && ps.any (fun p => keyInForce (portAt s p) k.epoch) then reply .state [] s
    else
      reply .ok []
        (logEvent 0x0703 0 0 0 (toLe 3 (fieldB pl 0 3) ++ toLe 1 (fieldB pl 3 1))
          (ps.foldl (fun s p => pump p (updPort p (putKey k) s)) s))) s

/-- Reset a port: its counters are cleared, and one with a role starts a fresh link-up (R241, R265). -/
def resetPort (q : Port) : Port :=
  let q := { q with cnt := PortCnt.reset, retrained := none }
  if q.role = 0 then { q with st := .off } else startTraining q

/-- PORT_RESET: a fresh link-up of each named port (R241, R340). -/
def execPortReset (pl : Bytes) (s : State) : Out :=
  vendor 0xC116 false [.ready, .resident, .configured, .safe] (fun s =>
    reply .ok [] ((maskPorts (fieldB pl 0 3)).foldl (fun s p => updPort p resetPort (cutFrom p s)) s)) s

/-! ## Time and logs (R166, R178, R340, R367) -/

/-- TIME_OFFSET_SET: the cable-delay offset, within 1 ms (R333, R340). -/
def execTimeOffsetSet (pl : Bytes) (s : State) : Out :=
  vendor 0xC117 false allStates (fun s =>
    let v := sext 32 (fieldB pl 0 4)
    if v < -1000000 ∨ 1000000 < v then reply .range [] s
    else reply .ok [] { s with hall := { s.hall with offset := v, offsetSet := true } }) s

/-- The 32 bytes of an event record (R367). -/
def eventBytes (r : EventRec) : Bytes :=
  toLe 8 r.time.toNat ++ toLe 2 r.code.toNat ++ toLe 1 r.sev.toNat ++ toLe 1 (b2n r.tlock) ++
    toLe 4 (r.place.toNat * 2 ^ 28 + r.loc.toNat) ++ sliceB r.data 0 16

/-- The 32 bytes of a weir record (R166). -/
def weirBytes (r : WeirRec) : Bytes :=
  toLe 2 r.weir ++
    toLe 1 (b2n r.relay + 2 * r.gear + 8 * b2n r.sent + 16 * b2n r.deferred + 32 * b2n r.digests) ++ toLe 1 r.last ++
    toLe 2 r.lastIndex ++ zeros 2 ++ toLe 8 r.time.toNat ++ toLe 4 r.holdLc ++ toLe 4 r.step ++ zeros 8

/-- The 32 bytes of a digest record (R178). -/
def digestBytes (r : DigestRec) : Bytes :=
  toLe 16 r.digest.toNat ++ toLe 4 r.tid.toNat ++ toLe 2 r.weir ++ zeros 2 ++ toLe 8 r.step

/-- Record n of a log: 0 event, 1 weir, 2 digest. -/
def logRecord (s : State) (log n : Nat) : Bytes :=
  if log = 0 then eventBytes (Tab.get EventRec.zero s.logs.events (n % eventRing))
  else if log = 1 then weirBytes (Tab.get WeirRec.zero s.logs.weirs (n % 4096))
  else digestBytes (Tab.get DigestRec.zero s.logs.digests (n % 8192))

/-- Records written to a log. -/
def logCount (s : State) (log : Nat) : Nat :=
  if log = 0 then s.logs.eventCount else if log = 1 then s.logs.weirCount else s.logs.digestCount

/-- Size of a log's ring in records. -/
def logRing (log : Nat) : Nat := if log = 0 then eventRing else if log = 1 then 4096 else 8192

/-- LOG_READ: records from FIRST, or from the oldest kept, as many as MAX and the payload allow (R337, R340). -/
def execLogRead (pl : Bytes) (s : State) : Out :=
  vendor 0xC118 true allStates (fun s =>
    let log := fieldB pl 0 1
    if 2 < log ∨ zeroB pl 1 7 = false then reply .range [] s
    else
      let count := logCount s log
      let first := max (fieldB pl 8 8) (count - logRing log)
      let n := min (fieldB pl 16 4) (min (count - first) ((65536 - 24) / 32))
      reply .ok
        (toLe 8 count ++ toLe 4 n ++ toLe 4 32 ++ (List.range n).flatMap (fun i => logRecord s log (first + i))) s) s

/-- BG_RESULT: the header of the last background command and its result; the return code follows the DSTATUS of that header
(R338, R340). -/
def execBgResult (s : State) : Out :=
  vendor 0xC119 true allStates (fun s =>
    let r := s.mbx.bgRes
    putAnswer (returnCode r.dstatus) r.dstatus r.check
      (resultHeader r.dstatus r.check ++ toLe 2 r.opcode ++ toLe 2 r.sect ++ zeros 4 ++ toLe 8 r.offset ++ toLe 2 r.x ++
        toLe 2 r.y ++ zeros 4 ++ toLe 8 r.value ++ r.quote) s) s

end Sys2Proof.Machine
end

