-- ==== Sys2Proof/Machine/Manifest.lean ====
section
/-! DEFINITION. The layout of a manifest and what VERIFY checks: header, section table, record framing, relief section and
patches (R183 to R187, R192 to R194, R198, R199, R201). -/

namespace Sys2Proof.Machine

/-! ## Failures and places -/

/-- A failed check: its code, section-table index, byte offset and cluster (R201), and the S-mem offset when a word of
control memory fails (R111). Which failing check is reported, and the offset given for it, is log entry 43. -/
structure CheckFail where
  code : Nat
  sect : Nat
  off : Nat
  x : Nat
  y : Nat
  smem : Option Nat
deriving DecidableEq, Repr

/-- The outcome of a check. -/
abbrev Verdict := Option CheckFail

/-- The section index for header, SIG and RELIEF (R201). -/
def noSect : Nat := 0xFFFF

/-- A check at a place of the manifest. -/
def failIf (bad : Bool) (code sect off : Nat) : Verdict :=
  if bad then some { code := code, sect := sect, off := off, x := 0, y := 0, smem := none } else none

/-- The first failure of some checks. -/
def firstFail (vs : List Verdict) : Verdict := vs.findSome? id

/-- The first failure over a list. -/
def failOver {α : Type} (f : α → Verdict) (xs : List α) : Verdict := xs.findSome? f

/-- Whether every element fits before the next: rising and disjoint ranges, each given as start and end. -/
def apart : List (Nat × Nat) → Bool
  | [] => true
  | a :: as => as.all (fun b => decide (a.2 ≤ b.1) || decide (b.2 ≤ a.1) || a.1 == a.2 || b.1 == b.2) && apart as

/-- Whether a list has no repeats. -/
def distinct {α : Type} [BEq α] (xs : List α) : Bool := xs.eraseDups.length == xs.length

/-! ## The manifest region (R198) -/

/-- Stack key of manifest byte i. -/
def manifestKey (i : Nat) : Nat := stackKey (i / 4096 % 16) (0x1170000000 + i / 65536 * 4096 + i % 4096)

/-- The bytes of the manifest region from byte 0 on, page by page. -/
def manifestBytes (s : State) (size : Nat) : Bytes :=
  ((List.range ((size + 4095) / 4096)).flatMap (fun p => Mem.span 0 s.stackMem (manifestKey (4096 * p)) 4096)).take size

/-- The largest manifest (R183). -/
def maxManifest : Nat := 2 ^ 35

/-- Size of the SIG section (R183). -/
def sigSize : Nat := 7856

/-! ## Header (R183) -/

/-- MODE of the header. -/
def hdrMode (m : Bytes) : Nat := fieldB m 6 1
/-- BODY_SIZE of the header. -/
def hdrBody (m : Bytes) : Nat := fieldB m 8 8
/-- SECT_COUNT of the header. -/
def hdrSects (m : Bytes) : Nat := fieldB m 0x10 4

/-- Whether the header keeps R183. -/
def headerOk (m : Bytes) : Bool :=
  m.take 4 == ascii "PLYM" && fieldB m 4 2 == 0x0100 && decide (hdrMode m < 2) && zeroB m 7 1 && hdrBody m % 64 == 0 &&
  decide (4096 ≤ hdrBody m) && decide (2 ≤ hdrSects m) && decide (hdrSects m ≤ 108) && zeroB m 0x14 4 && zeroB m 0x40 64

/-- The manifest digest (R192). -/
def manifestDigest (m : Bytes) : Bytes := sha256 (m.take (hdrBody m))

/-! ## Section table (R184) -/

/-- A section-table entry, with its place in the table. -/
structure SectEnt where
  no : Nat
  type : Nat
  index : Nat
  off : Nat
  size : Nat
deriving DecidableEq, Repr

/-- The section table. -/
def sections (m : Bytes) : List SectEnt :=
  (List.range (hdrSects m)).map (fun i =>
    let b := sliceB m (0x80 + 32 * i) 32
    { no := i, type := fieldB b 0 2, index := fieldB b 2 2, off := fieldB b 8 8, size := fieldB b 16 8 })

/-- The sections of one type: 1 FIELD, 2 RING, 3 TIER, 4 SCHED. -/
def sectionsOf (type : Nat) (m : Bytes) : List SectEnt := (sections m).filter (fun e => e.type == type)

/-- Whether one section-table entry keeps R184 by itself. -/
def sectOk (m : Bytes) (e : SectEnt) : Bool :=
  let b := sliceB m (0x80 + 32 * e.no) 32
  zeroB b 4 4 && zeroB b 24 8 && decide (1 ≤ e.type) && decide (e.type ≤ 4) &&
  decide (e.index < if e.type = 1 then 94 else if e.type = 2 then 12 else 1) && e.size % 8 == 0 && e.off % 64 == 0 &&
  decide (0x80 + 32 * hdrSects m ≤ e.off) && decide (e.off + e.size ≤ hdrBody m)

/-- Whether the body bytes from `pos` on that belong to no section are zero, the sections being sorted. -/
def gapsZero (m : Bytes) : Nat → List SectEnt → Bool
  | pos, [] => zeroB m pos (hdrBody m - pos)
  | pos, e :: es => zeroB m pos (e.off - pos) && gapsZero m (e.off + e.size) es

/-- Whether sections follow one another without overlap. -/
def sortedSects : List SectEnt → Bool
  | a :: b :: es => decide (a.off ≤ b.off) && decide (a.off + a.size ≤ b.off) && sortedSects (b :: es)
  | _ => true

/-- The section-table check (R184). -/
def tableVerdict (m : Bytes) : Verdict :=
  let es := sections m
  firstFail
    [failOver (fun e => failIf (sectOk m e == false) 0x0004 e.no (0x80 + 32 * e.no)) es,
     failIf ((sectionsOf 4 m).length != 1 || (sectionsOf 3 m).length != 1 ||
       distinct ((sectionsOf 1 m).map (fun e => e.index)) == false ||
       distinct ((sectionsOf 2 m).map (fun e => e.index)) == false ||
       sortedSects es == false || gapsZero m (0x80 + 32 * hdrSects m) es == false) 0x0004 noSect 0x80]

/-! ## Records (R185) -/

/-- A record: its type, its byte offset in the manifest or patch, and its body. -/
structure Rec where
  type : Nat
  off : Nat
  body : Bytes
deriving DecidableEq, Repr

/-- The records that fill a byte string exactly; none when they do not. -/
def cutRecs : Nat → Nat → Bytes → Option (List Rec)
  | _, _, [] => some []
  | 0, _, _ => none
  | fuel + 1, off, b =>
    let len := fieldB b 4 4
    if b.length < 8 + len ∨ len % 8 ≠ 0 ∨ zeroB b 2 2 = false then none
    else (cutRecs fuel (off + 8 + len) (b.drop (8 + len))).map
      (fun rs => { type := fieldB b 0 2, off := off, body := (b.drop 8).take len } :: rs)

/-- The records of a byte string that starts at an offset. -/
def recordsAt (off : Nat) (b : Bytes) : Option (List Rec) := cutRecs (b.length / 8 + 1) off b

/-- The records of a section. -/
def recordsOf (m : Bytes) (e : SectEnt) : List Rec := (recordsAt e.off ((m.drop e.off).take e.size)).getD []

/-- Record types allowed in a section type, its first record apart (R185). -/
def allowedRecs (type : Nat) : List Nat :=
  if type = 1 then [0x101, 0x102, 0x103, 0x104] else if type = 2 then [0x200, 0x201, 0x202, 0x203]
  else if type = 3 then [0x203, 0x300, 0x301, 0x302] else [0x401]

/-- The first record that a section type requires, if any. -/
def firstRec (type : Nat) : Option Nat := if type = 1 then some 0x100 else if type = 4 then some 0x400 else none

/-- The framing check of a section (R185). -/
def framingVerdict (m : Bytes) (e : SectEnt) : Verdict :=
  match recordsAt e.off ((m.drop e.off).take e.size) with
  | none => failIf true 0x0005 e.no e.off
  | some rs =>
    let allowed := allowedRecs e.type
    let rest : Option (List Rec) := match firstRec e.type with
      | some t => if (rs.head?.map (fun r : Rec => r.type)) == some t then some (rs.drop 1) else none
      | none => some rs
    match rest with
    | none => failIf true 0x0005 e.no e.off
    | some rest => failOver (fun r : Rec => failIf (allowed.contains r.type == false) 0x0005 e.no r.off) rest

/-! ## Relief patches (R193) -/

/-- FIELD of a patch. -/
def patchField (p : Bytes) : Nat := fieldB p 4 1
/-- Cluster words of a patch from an offset on: (u, v). -/
def patchWords (p : Bytes) (off : Nat) : List (Nat × Nat) :=
  (List.range (fieldB p 5 1)).map (fun i => let w := fieldB p (off + 2 * i) 2; (bits w 4 0, bits w 9 5))
/-- FAILED clusters. -/
def patchFailed (p : Bytes) : List (Nat × Nat) := patchWords p 8
/-- TARGET clusters. -/
def patchTargets (p : Bytes) : List (Nat × Nat) := patchWords p 16
/-- BODY_SIZE of a patch. -/
def patchBody (p : Bytes) : Nat := fieldB p 24 8
/-- Bytes of a patch. -/
def patchSize (p : Bytes) : Nat := 0x60 + patchBody p + sigSize
/-- The records of the body of a patch that starts at a byte of the manifest. -/
def patchRecs (start : Nat) (p : Bytes) : List Rec := (recordsAt (start + 0x60) ((p.drop 0x60).take (patchBody p))).getD []

/-- Key of a field-local cluster position in the order of R186. -/
def posKey (x : Nat × Nat) : Nat := x.2 * 32 + x.1

/-- Whether keys rise. -/
def rising : List Nat → Bool
  | a :: b :: xs => decide (a < b) && rising (b :: xs)
  | _ => true

/-- Whether the framing of a patch keeps R193. -/
def patchFramed (p : Bytes) : Bool :=
  let n := fieldB p 5 1
  p.take 4 == ascii "PLYR" && decide (patchField p < 94) && decide (1 ≤ n) && decide (n ≤ 4) && zeroB p 6 2 &&
  (List.range 8).all (fun i => decide (fieldB p (8 + 2 * i) 2 < 1024)) &&
  zeroB p (8 + 2 * n) (8 - 2 * n) && zeroB p (16 + 2 * n) (8 - 2 * n) && rising ((patchFailed p).map posKey) &&
  patchBody p % 8 == 0 && p.length == patchSize p && zeroB p 0x40 32 &&
  (match recordsAt 0x60 ((p.drop 0x60).take (patchBody p)) with
   | none => false
   | some rs => rs.all (fun r => (allowedRecs 1).contains r.type))

/-- Step 1 of R196: framing, BASE_DIGEST, signature. -/
def patchStep1 (key digest p : Bytes) : Bool :=
  patchFramed p && ((p.drop 32).take 32 == digest) &&
  Config.slhVerify key (sha256 (p.take (0x60 + patchBody p))) (p.drop (0x60 + patchBody p))

/-- Store a patch; it replaces one of the same FIELD and FAILED set (R195). -/
def storePatch (ps : List Bytes) (p : Bytes) : List Bytes :=
  ps.filter (fun q => patchField q != patchField p || patchFailed q != patchFailed p) ++ [p]

/-- Cut `n` patches off a byte string. -/
def cutPatches : Nat → Bytes → List Bytes
  | 0, _ => []
  | n + 1, b => b.take (patchSize b) :: cutPatches n (b.drop (patchSize b))

/-- Patches that follow each other from a byte on, each with the byte where it starts. -/
def placedPatches : Nat → List Bytes → List (Nat × Bytes)
  | _, [] => []
  | start, p :: ps => (start, p) :: placedPatches (start + p.length) ps

/-- The byte of the manifest where a resident patch starts: the patches follow body, SIG and the 16-byte RELIEF header in
the order in which they are resident. -/
def patchStart (r : Resident) (p : Bytes) : Nat :=
  ((r.patches.takeWhile (· != p)).map (fun q => q.length)).foldl (· + ·) (r.size + 16)

/-- The bytes of a manifest after its SIG section (R183, R193). -/
def reliefBytes (m : Bytes) : Bytes := m.drop (hdrBody m + sigSize)

/-- The patches that a manifest carries, the later of two with one FIELD and FAILED set kept. -/
def manifestPatches (m : Bytes) : List Bytes :=
  let b := reliefBytes m
  (cutPatches (if b.isEmpty then 0 else fieldB b 4 4) (b.drop 16)).foldl storePatch []

/-- The relief-section check (R193, R199). -/
def reliefVerdict (key m : Bytes) : Verdict :=
  let b := reliefBytes m
  let n := fieldB b 4 4
  let at_ := hdrBody m + sigSize
  if b.isEmpty then none
  else if b.length < 16 ∨ b.take 4 ≠ ascii "PLYL" ∨ 1024 < n ∨ fieldB b 8 8 ≠ b.length then failIf true 0x0009 noSect at_
  else
    let ps := cutPatches n (b.drop 16)
    firstFail
      [failIf ((ps.map (fun p => p.length)).foldl (· + ·) 16 != b.length) 0x0009 noSect at_,
       failOver (fun p => failIf (patchStep1 key (manifestDigest m) p.2 == false) 0x0009 noSect p.1) (placedPatches (at_ + 16) ps)]

/-! ## The checks of VERIFY (R199) -/

/-- The checks of R199 in their order. -/
def verifyVerdict (d : LoadDecl) (m : Bytes) : Verdict :=
  firstFail
    [failIf (headerOk m == false) 0x0001 noSect 0,
     failIf (decide (d.size < hdrBody m + sigSize)) 0x0002 noSect 8,
     failIf (manifestDigest m != d.digest) 0x0012 noSect 0,
     failIf (Config.slhVerify d.key (manifestDigest m) ((m.drop (hdrBody m)).take sigSize) == false) 0x0003 noSect (hdrBody m),
     tableVerdict m,
     failOver (framingVerdict m) (sections m),
     reliefVerdict d.key m]

end Sys2Proof.Machine
end

