-- ==== Sys2Proof/Machine/Merge.lean ====
section
/-! DEFINITION. Lane faults, lane sparing and failed links of the merged map (R26, R29, R30, R136, R137). -/

namespace Sys2Proof.Machine

/-! ## Lane-fault entries (R26) -/

/-- Cluster of a lane-fault entry. -/
def entryCluster (e : BitVec 32) : Nat := bits e.toNat 16 0
/-- DIR of a lane-fault entry. -/
def entryDir (e : BitVec 32) : Nat := bits e.toNat 18 17
/-- LANE of a lane-fault entry. -/
def entryLane (e : BitVec 32) : Nat := bits e.toNat 22 19

/-- The entry of a cluster, direction and lane. -/
def laneEntryOf (c d l : Nat) : BitVec 32 := BitVec.ofNat 32 (l * 2 ^ 19 + d * 2 ^ 17 + c)

/-- Place of an entry in the order of R26: cluster, then direction, then lane. -/
def entryRank (e : BitVec 32) : Nat := entryCluster e * 64 + entryDir e * 16 + entryLane e

/-- Put an entry in a list kept in that order, without repeats. -/
def insertEntry (e : BitVec 32) : List (BitVec 32) → List (BitVec 32)
  | [] => [e]
  | x :: xs =>
    if entryRank e < entryRank x then e :: x :: xs
    else if entryRank e = entryRank x then x :: xs
    else x :: insertEntry e xs

/-- The union of two lane-fault sets (R29, R31). -/
def unionLanes (old new : List (BitVec 32)) : List (BitVec 32) := new.foldl (fun ls e => insertEntry e ls) old

/-! ## Link directions (R29) -/

/-- A direction by its number (R26). -/
def dirOf (d : Nat) : Dir := if d = 0 then .north else if d = 1 then .east else if d = 2 then .south else .west

/-- The faulty lanes of a link direction. -/
structure LinkFaults where
  cluster : Nat
  dir : Nat
  lanes : List Nat
deriving DecidableEq, Repr

/-- Add an entry to groups whose first has the same link direction or comes after it. -/
def addFault (e : BitVec 32) (gs : List LinkFaults) : List LinkFaults :=
  let g : LinkFaults := { cluster := entryCluster e, dir := entryDir e, lanes := [entryLane e] }
  match gs with
  | [] => [g]
  | h :: t => if h.cluster = g.cluster ∧ h.dir = g.dir then { h with lanes := entryLane e :: h.lanes } :: t else g :: h :: t

/-- The lane faults by link direction. -/
def linkFaults (ls : List (BitVec 32)) : List LinkFaults := ls.foldr addFault []

/-- The lane that a direction carries on its spare: its one faulty lane in use, with a sound spare (R29). -/
def LinkFaults.spared (g : LinkFaults) : Option Nat :=
  match g.lanes with
  | [l] => if l < 9 then some l else none
  | _ => none

/-- Whether a direction is a failed link: two faulty lanes in use, or one with a faulty spare (R29). -/
def LinkFaults.fails (g : LinkFaults) : Bool :=
  decide (2 ≤ (g.lanes.filter (fun l => decide (l < 9))).length) ||
    (g.lanes.any (fun l => decide (l < 9)) && g.lanes.contains 9)

/-- A failed link joins the set (R29, R30). -/
def addFailed (x : Nat × Dir) (fs : List (Nat × Dir)) : List (Nat × Dir) := if fs.contains x then fs else fs ++ [x]

/-- The field of LINK_SPARE for a direction (R137). -/
def setSpare (d l : Nat) (w : BitVec 16) : BitVec 16 :=
  BitVec.ofNat 16 (w.toNat - bits w.toNat (4 * d + 3) (4 * d) * 2 ^ (4 * d) + l * 2 ^ (4 * d))

/-- LINK_SPARE of every router for some lane faults and failed links (R137): in each the settings of the links that it
drives (log entry 85). -/
def sparesOf (gs : List LinkFaults) (failed : List (Nat × Dir)) : Tab (BitVec 16) :=
  gs.foldl (fun t g =>
    match g.spared with
    | some l =>
      if failed.contains (g.cluster, dirOf g.dir) ∨ (outLink g.cluster (dirOf g.dir)).isNone then t
      else Tab.upd 0xFFFF t g.cluster (setSpare g.dir l)
    | none => t) []

/-- LINK_SPARE of a cluster (R137). -/
def linkSpare (s : State) (c : Nat) : BitVec 16 := Tab.get 0xFFFF s.map.spare c

/-- An event about a link direction, with an entry of the form of R26 (R367; log entry 16). -/
def logLink (code : Nat) (e : BitVec 32) : State → State :=
  logEvent code (if code = 0x0202 then 1 else 0) atCluster (entryCluster e) (toLe 4 e.toNat)

/-- Record a failed link with its event (R29, R136, R375, R392). -/
def failLink (code : Nat) (s : State) (x : Nat × Dir) : State :=
  logLink code (laneEntryOf x.1 (dirNum x.2) 0) { s with map := { s.map with failed := addFailed x s.map.failed } }

/-- Lane faults join the merged map: the failed links that they make are recorded and logged as event 0x0203, the
directions that now run on their spare as event 0x0202 (R29 to R31, R137). -/
def addLanes (new : List (BitVec 32)) (s : State) : State :=
  let lanes := unionLanes s.map.lanes new
  let gs := linkFaults lanes
  let bad := (gs.filter (fun g => g.fails)).map (fun g => (g.cluster, dirOf g.dir))
  let failed := bad.foldl (fun fs x => addFailed x fs) s.map.failed
  let spare := sparesOf gs failed
  let spared := (gs.filter (fun g =>
      bits (Tab.get 0xFFFF spare g.cluster).toNat (4 * g.dir + 3) (4 * g.dir) != 15 &&
        bits (linkSpare s g.cluster).toNat (4 * g.dir + 3) (4 * g.dir) == 15)).map
    (fun g => laneEntryOf g.cluster g.dir (g.lanes.headD 0))
  let fresh := (gs.filter (fun g => g.fails && !s.map.failed.contains (g.cluster, dirOf g.dir))).map
    (fun g => laneEntryOf g.cluster g.dir (g.lanes.headD 0))
  let s := { s with map := { s.map with lanes := lanes, failed := failed, spare := spare } }
  let s := spared.foldl (fun s e => logLink 0x0202 e s) s
  fresh.foldl (fun s e => logLink 0x0203 e s) s

end Sys2Proof.Machine
end

