-- ==== Sys2Proof/Machine/ColdStart.lean ====
section
/-! DEFINITION. The cold start (R27, R34, R322, R349 to R358, R372 to R374, R383, R384, R429, R430): one command from the
assertion of PWR_EN to STATE 2 or STATE 1. What the hardware measures in it is the command's operand; what the steward
computes is computed here. Times taken are free values (log entry 49). -/

namespace Sys2Proof.Machine

/-! ## Power (R382, R383) -/

/-- The module without power: everything it holds is lost; flash and the state of the inputs remain (R349, R382). -/
def powerOff (s : State) : State :=
  { State.reset with
    pending := s.pending, freeCount := s.freeCount, flash := s.flash,
    power := { Power.reset with
      pwrEn := s.power.pwrEn, flashPgm := s.power.flashPgm, held := s.power.held, feedA := s.power.feedA,
      feedB := s.power.feedB, hallRefOk := s.power.hallRefOk, hallRefBad := s.power.hallRefBad,
      flashVcc := s.power.flashVcc, emptyCages := s.power.emptyCages } }

/-- The board controller turns the supplies on (R383). -/
def supplyOn : FieldReg := { FieldReg.reset with vset := 700, supply := .on }

/-- Power is on and nothing else has happened: the hub is released with everything at reset (R350 steps 1 and 2, R383). -/
def powerOn (s : State) : State :=
  let s := powerOff s
  { s with
    power := { s.power with pwrEn := true, held := false, on := true },
    heat := { s.heat with fields := (List.range 94).map (fun f => (f, supplyOn)) },
    hall := { s.hall with ref10 := s.power.hallRefOk } }

/-! ## Steps and failures (R350, R351) -/

/-- The failures that the hardware reports (R351). -/
def hardwareCauses : List Nat :=
  [0x0101, 0x0102, 0x0201, 0x0202, 0x0203, 0x0401, 0x0501, 0x0502, 0x0601, 0x0701, 0x0702, 0x0901, 0x0902]

/-- The failure that the hardware reports in a step, by its START_CAUSE. -/
def hardwareFault (o : ColdOutcome) (n : Nat) : Option Nat :=
  match o.fail with
  | some c => if hardwareCauses.contains c.toNat && c.toNat / 256 == n then some c.toNat else none
  | none => none

/-- Log the failed start: a PLL that did not lock names its field, a stack whose training failed its number, and the detail of
any other failure is not stated (R351, R367; log entry 6). -/
def logFailure (o : ColdOutcome) (cause : Nat) (s : State) : State :=
  if cause = 0x0501 then logEvent 0x0101 2 atField o.failField.val (toLe 2 cause ++ toLe 4 o.failField.val) s
  else if cause = 0x0901 then logEvent 0x0101 2 atStack o.failStack.val (toLe 2 cause ++ toLe 4 o.failStack.val) s
  else
    let (d, s) := freeVal 32 s
    logEvent 0x0101 2 atHub 0 (toLe 2 cause ++ toLe 4 d.toNat) s

/-- The engine fails the start (R351, R429). -/
def startFails (o : ColdOutcome) (cause : Nat) (s : State) : State :=
  let s := logFailure o cause s
  trainHost o.channel
    { s with
      dev := { s.dev with st := .startFailed, startCause := BitVec.ofNat 16 cause }, power := { s.power with fault := true } }

/-- Time that a step takes, in ns: the power sequence its 1,200 ms, before the hub's counters run (R383); any other an amount
within its budget in ms that the spec does not fix (R350; log entry 49). -/
def stepSpan (n budget : Nat) (s : State) : Nat × State :=
  if n = 1 then (1200000000, s)
  else
    let (t, s) := freeVal 34 s
    (t.toNat % (budget * 1000000 + 1), s)

/-- Time passes on the hub's counters; step 1 ends with the hub's release, and step 3 runs beside the steps after it (R350,
R378). -/
def passStep (n ns : Nat) (s : State) : State :=
  if n = 1 ∨ n = 3 then s
  else { s with hall := { s.hall with ns := s.hall.ns + ns * 2 ^ 32, up := s.hall.up + ns * (84 * 2 ^ 32) } }

/-- A step has ended: START_STEP and the event with the time it took (R331, R350, R367). -/
def stepDone (n budget : Nat) (s : State) : State :=
  let (ns, s) := stepSpan n budget s
  let s := passStep n ns s
  logEvent 0x0100 0 0 0 (toLe 1 n ++ toLe 4 (ns / 1000000)) { s with dev := { s.dev with startStep := n } }

/-- Go on, or stop with a failure. -/
def unlessFails (o : ColdOutcome) (cause : Option Nat) (next : State → State) (s : State) : State :=
  match cause with
  | some c => startFails o c s
  | none => next s

/-! ## Step 4: key chain and identity (R349, R354, R355) -/

/-- The flash regions of step 4 (R349). -/
def rootCert (s : State) : Bytes := flashRead s 0 0x4000
def factoryCert (s : State) : Bytes := flashRead s 0x4000 0x4000
def policyCert (s : State) : Bytes := flashRead s 0x8000 0x4000
def identityCert (s : State) : Bytes := flashRead s 0x10000 0x8000
def helperRecord (s : State) : Bytes := flashRead s 0x20000 0x20000

/-- The FACTORY key and the POLICY key (R355). -/
def factoryKey (s : State) : Bytes := Config.certKey (factoryCert s)
def policyKey (s : State) : Bytes := Config.certKey (policyCert s)

/-- SK.seed, SK.prf and PK.seed (R354 step 3). -/
def identitySeeds (puf : Bytes) : Bytes := hkdfExpand puf (ascii "PLYNIF BZ7 identity 1") 48

/-- The identity public key (R354 step 4). -/
def identityPk (puf : Bytes) : Bytes := (identitySeeds puf).drop 32 ++ Config.slhRoot (identitySeeds puf)

/-- The private link key d (R354 step 5). -/
def linkPrivate (puf : Bytes) : Nat :=
  leNat (hkdfExpand puf (ascii "PLYNIF BZ7 link 1") 64).reverse % (Config.p384Order - 1) + 1

/-- The first check of step 4 that fails, by its cause (R351, R354, R355; log entry 49 for the place of 0x0401). -/
def chainFault (o : ColdOutcome) (s : State) : Option Nat :=
  let root := rootCert s
  let key := Config.certKey root
  if sha256 key ≠ Config.rootHash then some 0x0402
  else if !Config.certSigned root key then some 0x0403
  else if !(Config.certSigned (factoryCert s) key && Config.certRole (factoryCert s) == 1) then some 0x0403
  else if !(Config.certSigned (policyCert s) key && Config.certRole (policyCert s) == 2) then some 0x0403
  else if !(Config.certSigned (identityCert s) (factoryKey s) && Config.certP384 (identityCert s) &&
      (Config.certKey (identityCert s)).length == 32) then some 0x0404
  else if !((helperRecord s).take 4 == ascii "PLYH" && Config.helperSigned (helperRecord s) (factoryKey s)) then some 0x0406
  else if !Config.pufCheck (helperRecord s) o.puf then some 0x0401
  else if identityPk o.puf ≠ Config.certKey (identityCert s) ∨
      Config.p384Public (linkPrivate o.puf) ≠ Config.certSubject (identityCert s) then some 0x0405
  else none

/-- The identity of the module (R330, R354). -/
def deriveIdentity (o : ColdOutcome) (s : State) : State :=
  let pk := identityPk o.puf
  let h := sha256 pk
  { s with
    ids := { s.ids with
      secret := identitySeeds o.puf ++ (toLe 48 (linkPrivate o.puf)).reverse, pk := pk, idHash := h,
      linkPub := Config.p384Public (linkPrivate o.puf) },
    dev := { s.dev with physId := BitVec.ofNat 64 (fieldB h 0 8) } }

/-! ## Step 4: policy blocks (R357, R358) -/

/-- A policy slot as stored (R349). -/
def policySlot (s : State) (i : Nat) : Bytes := flashRead s (0x100000 + 0x10000 * i) 0x10000

/-- TYPE of a policy block (R357). -/
def blockType (b : Bytes) : Nat := fieldB b 6 2
/-- VERSION of a policy block (R357). -/
def blockVersion (b : Bytes) : Nat := fieldB b 8 4
/-- LENGTH of a policy block (R357). -/
def blockLength (b : Bytes) : Nat := fieldB b 0x10 4

/-- The parameter entries of a policy block (R357). -/
def blockParams (b : Bytes) : List Bytes := chunksB 8 4096 ((b.drop 0x20).take (blockLength b))

/-- Whether a parameter is listed for its type with a value in range (R357). -/
def paramOk (type id value : Nat) : Bool :=
  if type = 1 ∧ id = 1 then decide (1 ≤ value) && decide (value ≤ 8)
  else if type = 1 ∧ id = 2 then decide (value ≤ 1)
  else if type = 2 ∧ id = 1 then decide (value ≤ 30)
  else if type = 3 ∧ id = 1 then decide (value ≤ 7)
  else if type = 4 ∧ id = 1 then decide (value ≤ 3)
  else false

/-- Whether a policy block is accepted (R357, R358). -/
def blockOk (key b : Bytes) : Bool :=
  let n := blockLength b
  b.take 4 == ascii "PLYP" && fieldB b 4 2 == 1 && zeroB b 0x14 12 && n % 8 == 0 && decide (8 ≤ n) && decide (n ≤ 32768) &&
    decide (1 ≤ blockType b) && decide (blockType b ≤ 4) &&
    (blockParams b).all (fun e => zeroB e 2 2 && paramOk (blockType b) (fieldB e 0 2) (fieldB e 4 4)) &&
    Config.slhVerify key (sha256 (b.take (0x20 + n))) (sliceB b (0x20 + n) 7856) &&
    decide (fieldB b 0x0C 2 ≤ Config.romLevel.toNat) && decide (Config.romLevel.toNat ≤ fieldB b 0x0E 2)

/-- A policy slot that holds a block: its first four bytes are not all ones (R349). -/
def slotUsed (b : Bytes) : Bool := b.take 4 != [0xFF, 0xFF, 0xFF, 0xFF]

/-- The accepted block in force among those of a type: the highest VERSION, the lower slot of two (R358). -/
def bestBlock (bs : List (Nat × Bytes)) : Option (Nat × Bytes) :=
  bs.foldl (fun best b =>
    match best with
    | some x => if blockVersion x.2 < blockVersion b.2 then some b else best
    | none => some b) none

/-- A block in force, as the engine keeps it (R358, R364). -/
def policyOf (b : Bytes) : Policy :=
  { type := blockType b, version := blockVersion b, minRom := fieldB b 0x0C 2, maxRom := fieldB b 0x0E 2,
    digest := sha256 (b.take (0x20 + blockLength b + 7856)),
    params := (blockParams b).map (fun e => (fieldB e 0 2, fieldB e 4 4)) }

/-- Log a policy block (R358, R367). -/
def logPolicy (code : Nat) (b : Nat × Bytes) : State → State :=
  logEvent code 0 0 0 (toLe 1 b.1 ++ toLe 2 (blockType b.2) ++ toLe 4 (blockVersion b.2))

/-- The steward reads the policy slots (R358). -/
def readPolicies (s : State) : State :=
  let slots := ((List.range 16).map (fun i => (i, policySlot s i))).filter (fun b => slotUsed b.2)
  let good := slots.filter (fun b => blockOk (policyKey s) b.2)
  let force := [1, 2, 3, 4].filterMap (fun t => bestBlock (good.filter (fun b => blockType b.2 == t)))
  let s := (slots.filter (fun b => !blockOk (policyKey s) b.2)).foldl (fun s b => logPolicy 0x0700 b s) s
  let s := force.foldl (fun s b => logPolicy 0x0701 b s) s
  { s with ids := { s.ids with policies := force.map (fun b => policyOf b.2) } }

/-- A parameter in force, or its ROM default (R357, R358). -/
def policyParam (s : State) (type id dflt : Nat) : Nat :=
  match s.ids.policies.find? (fun p => p.type == type) with
  | some p => ((p.params.find? (fun e => e.1 == id)).map Prod.snd).getD dflt
  | none => dflt

/-! ## Steps 5 and 6 (R372 to R374, R384) -/

/-- Every field PLL has locked, and the crossings are calibrated (R374). -/
def calibrate (o : ColdOutcome) (s : State) : State :=
  let s := { s with
    power := { s.power with refPresent := true },
    heat := { s.heat with fields := Tab.mapVals FieldReg.reset (fun _ r => { r with pll := true }) s.heat.fields } }
  (o.badCross.filter (fun x => (outLink x.1 x.2).isSome)).foldl (failLink 0x0204) s

/-- VSET in mV of a field whose last passing voltage is known or not (R384). -/
def vsetOf (bias : Nat) (vmin : Option Nat) : Nat :=
  match vmin with
  | some v => max 620 (min 780 (roundUp (v + 30 + bias) 5))
  | none => 780

/-- Set a field's voltage and measure it; Vmin where no voltage passes is a free value (R384, R393; log entry 49). -/
def setVoltage (o : ColdOutcome) (s : State) (f : Nat) : State :=
  let vmin := o.vmin.getD f none
  let (v, s) := freeVal 16 s
  measureField { s with heat := { s.heat with
    fields := Tab.upd FieldReg.reset s.heat.fields f (fun r =>
      { r with vset := vsetOf (policyParam s 2 1 0) vmin, vmin := vmin.getD v.toNat }) } } f

/-! ## Step 7: the neighbour test (R352, R353) -/

/-- Whether two clusters are neighbours over a link that has not failed (R352). -/
def sharesLink (failed : List (Nat × Dir)) (a b : Nat) : Bool :=
  [Dir.north, Dir.east, Dir.south, Dir.west].any (fun d =>
    neighbour a d == some b && !failed.contains (a, d) && !failed.contains (b, opp d))

/-- The failed links that the test itself knows: the calibration's and those of the lanes it finds (R352, R374). -/
def testFailed (o : ColdOutcome) (s : State) : List (Nat × Dir) :=
  s.map.failed ++ ((linkFaults (unionLanes [] o.lanes)).filter (fun g => g.fails)).map (fun g => (g.cluster, dirOf g.dir))

/-- The bad votes that count, each voter and target once (R352). -/
def castVotes (o : ColdOutcome) (s : State) : List (Nat × Nat) :=
  (o.votes.filter (fun v => isCluster v.1 && isCluster v.2 && sharesLink (testFailed o s) v.1 v.2)).eraseDups

/-- The voters against a cluster that are not bad (R353). -/
def votersOf (vs : List (Nat × Nat)) (bad : List Nat) (t : Nat) : List Nat :=
  (vs.filter (fun v => v.2 == t && !bad.contains v.1)).map Prod.fst

/-- Rounds of the voting: each cluster that becomes bad, with its votes and its round, and the bad clusters at the end
(R353). -/
def voteRounds : Nat → Nat → List (Nat × Nat) → List Nat → List (Nat × Nat × Nat) × List Nat
  | 0, _, _, bad => ([], bad)
  | n + 1, round, vs, bad =>
    let targets := vs.foldl (fun ts v => insertNat v.2 ts) []
    let new := targets.filter (fun t => !bad.contains t && decide (2 ≤ (votersOf vs bad t).length))
    if new.isEmpty then ([], bad)
    else
      let r := voteRounds n (round + 1) vs (bad ++ new)
      (new.map (fun t => (t, (votersOf vs bad t).length, round)) ++ r.1, r.2)

/-- What the neighbour test decides: its log, and the bad clusters (R353). -/
def neighbourTest (o : ColdOutcome) (s : State) : List (Nat × Nat × Nat) × List Nat :=
  let vs := castVotes o s
  let bad := (o.noVerdict.filter isCluster).foldl (fun ts c => insertNat c ts) []
  let r := voteRounds 8 1 vs bad
  (bad.map (fun c => (c, (votersOf vs bad c).length, 1)) ++ r.1, r.2)

/-- Log what the neighbour test decides (R353, R357, R367). -/
def logTest (o : ColdOutcome) (s : State) : State :=
  let r := neighbourTest o s
  let vs := castVotes o s
  let singles := (vs.foldl (fun ts v => insertNat v.2 ts) []).filterMap (fun t =>
    match votersOf vs r.2 t with
    | [v] => if r.2.contains t then none else some (t, v)
    | _ => none)
  let t := r.1.foldl (fun s e => logEvent 0x0200 0 atCluster e.1 (toLe 4 e.1 ++ toLe 1 e.2.1 ++ toLe 1 e.2.2) s) s
  if policyParam s 1 2 1 = 1 then
    singles.foldl (fun s e => logEvent 0x0201 0 atCluster e.1 (toLe 4 e.1 ++ toLe 4 e.2) s) t
  else t

/-! ## Step 8: defect map and merge (R26, R27, R29) -/

/-- The region of the factory defect map (R349). -/
def factoryRegion (s : State) : Bytes := flashRead s factoryAt 0x10000

/-- The lane-fault entries of a factory record (R26). -/
def factoryLanes (r : Bytes) : List (BitVec 32) :=
  (chunksB 4 (fieldB r 0x0C 4) (r.drop 0x22A0)).map (fun e => BitVec.ofNat 32 (leNat e)) |>.take (fieldB r 0x0C 4)

/-- The cluster numbers whose good bit is 1 (R26). -/
def goodBits (r : Bytes) : List Nat :=
  (((r.drop 0x40).take 8800).zip (List.range 8800)).flatMap (fun e =>
    (List.range 8).filterMap (fun j => if bit e.1.toNat j then some (8 * e.2 + j) else none))

/-- Whether lane-fault entries hold defined values in ascending order (R26): lanes 0 to 9, clusters below 70,400, an entry
for a vacant cluster or an absent link among them (log entry 82). -/
def entriesOk (es : List (BitVec 32)) : Bool :=
  es.all (fun e => decide (e.toNat < 2 ^ 23) && decide (entryLane e ≤ 9) && decide (entryCluster e < 70400)) &&
    rising (es.map entryRank)

/-- The first check of R27 that a factory record fails, by its cause (R27, R351); entries out of order or out of range and
a LANE_COUNT above 8,192 fail with the first check (log entry 82). -/
def factoryFault (key idHash r : Bytes) : Option Nat :=
  let l := fieldB r 0x0C 4
  if !(r.take 4 == ascii "PLYD" && fieldB r 4 2 == 1 && (fieldB r 6 1 == 1 || fieldB r 6 1 == 2) && zeroB r 7 1 &&
      zeroB r 0x38 8 && decide (l ≤ 8192) && entriesOk (factoryLanes r)) then some 0x0801
  else if (goodBits r).any (fun c => !isCluster c) then some 0x0802
  else if fieldB r 8 4 ≠ (goodBits r).length then some 0x0803
  else if !Config.slhVerify key (sha256 (r.take (0x22A0 + 4 * l))) (sliceB r (0x22A0 + 4 * l) 7856) then some 0x0804
  else if (r.drop 0x10).take 32 ≠ idHash then some 0x0805
  else none

/-- The marks of the merged map at cold start (R28, R29): factory-bad and test-bad clusters. -/
def coldMarks (r : Bytes) (bad : List Nat) : Tab (BitVec 2) :=
  (((r.drop 0x40).take 8800).zip (List.range 8800)).flatMap (fun e =>
    (List.range 8).filterMap (fun j =>
      let c := 8 * e.2 + j
      if isCluster c && (!bit e.1.toNat j || bad.contains c) then some (c, markBad) else none))

/-- The merge of R29. -/
def mergeMap (o : ColdOutcome) (s : State) : State :=
  let r := factoryRegion s
  let bad := (neighbourTest o s).2
  let new := bad.filter (fun c => bit (r.getD (0x40 + c / 8) 0).toNat (c % 8))
  let s := { s with
    map := { s.map with built := true, marks := coldMarks r bad },
    dev := { s.dev with grade := r.getD 6 0 } }
  let s := addLanes (unionLanes (factoryLanes r) o.lanes) s
  (new.foldl (fun ts c => insertNat c ts) []).foldl (fun s c => logEvent 0x0205 0 atCluster c (toLe 4 c) s) s

/-! ## The whole (R350) -/

/-- Step 9, and the end in STATE 2 (R350). -/
def coldStep9 (o : ColdOutcome) : State → State :=
  unlessFails o (hardwareFault o 9) (fun s =>
    let s := stepDone 10 0 (stepDone 9 3000 s)
    { s with dev := { s.dev with st := .ready } })

/-- Step 8 and what follows. -/
def coldStep8 (o : ColdOutcome) (s : State) : State :=
  unlessFails o (factoryFault (factoryKey s) s.ids.idHash (factoryRegion s))
    (fun s => coldStep9 o (stepDone 8 200 (mergeMap o s))) s

/-- Step 7 and what follows. -/
def coldStep7 (o : ColdOutcome) (s : State) : State :=
  unlessFails o (hardwareFault o 7)
    (fun s => coldStep8 o (stepDone 7 (500 + 1000 * policyParam s 1 1 4) (logTest o s))) s

/-- Step 6 and what follows. -/
def coldStep6 (o : ColdOutcome) (s : State) : State :=
  unlessFails o (hardwareFault o 6)
    (fun s => coldStep7 o (stepDone 6 800 ((List.range 94).foldl (setVoltage o) s))) s

/-- Step 5 and what follows. -/
def coldStep5 (o : ColdOutcome) (s : State) : State :=
  unlessFails o (hardwareFault o 5) (fun s => coldStep6 o (stepDone 5 1500 (calibrate o s))) s

/-- Step 4 and what follows. -/
def coldStep4 (o : ColdOutcome) (s : State) : State :=
  unlessFails o ((hardwareFault o 4).orElse (fun _ => chainFault o s))
    (fun s => coldStep5 o (stepDone 4 300 (readPolicies (deriveIdentity o s)))) s

/-- Steps 2 and 3: hub release, and the CXL link, which trains beside the steps that follow (R350; log entry 49). -/
def coldStep2 (o : ColdOutcome) (s : State) : State :=
  unlessFails o (hardwareFault o 2)
    (fun s =>
      let s := stepDone 2 100 s
      coldStep4 o (stepDone 3 100 (trainHost o.channel s))) s

/-- The cold start from unpowered supplies on (R350, R383, R429). -/
def coldStart (o : ColdOutcome) (s : State) : State :=
  unlessFails o (hardwareFault o 1)
    (fun s => coldStep2 o (let s := stepDone 1 0 s; { s with power := { s.power with pgood := true } })) (powerOn s)

/-- Whether a feed is in range (R381). -/
def feedReady (s : State) : Bool := s.power.feedA.st == .inRange || s.power.feedB.st == .inRange

/-- PWR_EN is asserted: with a feed in range the start begins, or is held while FLASH_PGM_N is asserted (R350, R430). The
input has its own supply: without a feed it is asserted all the same (R428). -/
def execColdStart (o : ColdOutcome) (s : State) : Out :=
  .next
    (if s.power.on then s
     else if s.power.flashPgm then { s with power := { s.power with pwrEn := true, held := true } }
     else if feedReady s = false then { s with power := { s.power with pwrEn := true } }
     else coldStart o s)

/-! ## Flash programming (R349, R430) -/

/-- Bytes of module flash (R349). -/
def flashSize : Nat := 2 ^ 28

/-- Program flash: each block at its offset, within the flash. -/
def program (prog : List (Nat × Bytes)) (m : Mem) : Mem :=
  prog.foldl (fun m b => Mem.write 0xFF m b.1 (b.2.take (flashSize - b.1))) m

/-- FLASH_PGM_N: asserted with PWR_EN deasserted and FLASH_VCC applied, the flash takes what is programmed; released, a start
held back begins (R428, R430). -/
def execFlashPgmN (pins : FlashPins) (prog : List (Nat × Bytes)) (o : ColdOutcome) (s : State) : Out :=
  .next
    (let s := { s with power := { s.power with flashPgm := pins.pgm, flashVcc := pins.vcc } }
     if pins.pgm then (if s.power.pwrEn || !pins.vcc then s else { s with flash := program prog s.flash })
     else
       if s.power.held && s.power.pwrEn && !s.power.on && feedReady s then coldStart o s else s)

end Sys2Proof.Machine
end

