-- ==== Sys2Proof/Machine/RunCmd.lean ====
section
/-! DEFINITION. The mailbox commands on runs, the logical identity and lending (R159, R160, R228, R229, R248, R287, R340,
R342, R356). -/

namespace Sys2Proof.Machine

/-! ## Weir release (R342) -/

/-- Whether a weir-table entry has a HOST condition. -/
def hasHost (e : WeirEntry) : Bool := e.conds.any (fun c => c.kind == 6)

/-- Whether a HOST condition of a weir was deferred and is not latched (R342). -/
def hostDeferred (s : State) (w : Nat) : Bool :=
  s.weir.deferred.any (fun d => d.weirNum == w && d.cond.kind == 6 && !d.latched)

/-- The answer to a WEIR_RELEASE (R342). -/
def releaseStatus (s : State) (pl : Bytes) : DStatus :=
  let w := fieldB pl 0 2
  if zeroB pl 2 6 = false then .range
  else if s.weir.hostRecs.contains w then .duplicate
  else
    match weirIndex s w with
    | none => .range
    | some i =>
      if (weirAt s i).any hasHost = false ∨ (i < s.weir.await ∧ hostDeferred s w = false) then .range
      else if 64 ≤ s.weir.hostRecs.length then .full
      else .ok

/-- WEIR_RELEASE: the weir is recorded for the run (R342). -/
def execWeirRelease (pl : Bytes) (s : State) : Out :=
  vendor 0xC106 false [.running] (fun s =>
    match releaseStatus s pl with
    | .ok => reply .ok [] (updWeir (fun w => { w with hostRecs := w.hostRecs ++ [fieldB pl 0 2] }) s)
    | d => reply d [] s) s

/-! ## Run start (R109, R110, R159, R160) -/

/-- The bytes of the run block (R160). -/
def runBlockBytes (s : State) (mode : Nat) : Bytes :=
  let r := s.runBlk
  toLe 8 r.step ++ r.seeds.flatMap (fun x => toLe 8 x.toNat) ++ toLe 8 r.dataPos.toNat ++ toLe 2 s.ids.rank ++
    toLe 2 s.ids.stage ++ toLe 1 mode ++ toLe 1 r.gear ++ zeros 10

/-- The g registers in half a block of initial registers: 32 values of 8 bytes (R109). -/
def gFile (bs : Bytes) : Tab W64 :=
  (List.range 32).foldl (fun t r => Tab.set 0 t r (BitVec.ofNat 64 (fieldB bs (8 * r) 8))) []

/-- The initial register block of a cluster; zeros when INIT_BASE is zero (R109). -/
def initBlock (c : Nat) (w : Work) : Bytes × Work :=
  if dirWord w.cl 0x1C = 0 then (zeros 512, w) else readSmem c (dirWord w.cl 0x1C) 512 w

/-- The 512 bytes of initial registers of an image (R109). -/
def initBytes (cl : Cluster) : Bytes := if dirWord cl 0x1C = 0 then zeros 512 else Mem.read 0 cl.smem (dirWord cl 0x1C) 512

/-- The cores of a cluster with their registers loaded (R109, R159). -/
def loadCores (init : Bytes) (cl : Cluster) : Cluster :=
  { cl with
    s0 := { ScalarCore.reset with g := gFile init },
    s1 := { ScalarCore.reset with g := gFile (init.drop 256) },
    a := [],
    vecs := Tab.mapVals VecCore.reset (fun _ v =>
      { VecCore.reset with dig := v.dig, tile := v.tile, fwd := v.fwd, der := v.der }) cl.vecs }

/-- A participant as the run command leaves it: registers loaded, scoreboard idle, cursors at entry 0, the run block
written, ARRIVE and LANDED due for the start weir (R110, R159). -/
def startCluster (c s0Base blockAt weir : Nat) (block : Bytes) (w : Work) : Work :=
  delivered w (initBlock c w) (fun init w => w.on (fun cl =>
    let cl := loadCores init cl
    { cl with
      s0 := { cl.s0 with st := .atWeir }, mem := Mem.write 0 cl.mem blockAt block,
      upsets := healGranules blockAt 64 cl.upsets, sb := [], pos := SlotPos.reset, late := [], uses := [], counted := [],
      resumeMain := s0Base, resumeRelay := s0Base, weirSent := false, arriveSent := true, landedSent := false,
      weirNum := weir }))

/-- The weir controller at run start: it awaits the start weir, whose decision is posted at once unless HOLD is set
(R152, R159, R164, R167). -/
def startWeirCtl (noParts : Bool) (lc : Nat) (w : WeirCtl) : WeirCtl :=
  { WeirCtl.reset with
    phase := if noParts then .held else .beforeDue, due := if noParts then some lc else none, decided := !w.hold,
    last := if w.hold then 0 else 0xF, lastLc := lc, lastRank := if w.hold then 2000 else rankDecision,
    gear := w.gear, nextGear := w.gear, relLc := w.relLc, hold := w.hold, relayDis := w.relayDis }

/-- The run block of a RUN command (R340). -/
def runBlockOf (pl : Bytes) : RunBlock :=
  { step := fieldB pl 0 8, seeds := (List.range 4).map (fun i => BitVec.ofNat 64 (fieldB pl (8 + 8 * i) 8)),
    dataPos := BitVec.ofNat 64 (fieldB pl 40 8), gear := fieldB pl 48 1, startTime := fieldB pl 56 8 }

/-- A run starts (R159, R161, R230, R260). -/
def startRun (i : Image) (pl : Bytes) (s : State) : State :=
  let s := { s with runBlk := runBlockOf pl }
  let block := runBlockBytes s i.mode
  let weir := (i.weirs.head?.map (fun e => e.num)).getD 0
  let sf := i.parts.foldl (fun sf c =>
    onCluster (startCluster · (dirWord (clusterAt sf.1 (fetchFrom sf.1 c .s0)) 0x04) i.runBlock weir block) sf c) (s, [])
  let s := sf.1
  let s := logEvent 0x0405 0 0 0 (toLe 8 s.runBlk.step)
    { s with
      dev := { s.dev with st := .running }, weir := startWeirCtl i.parts.isEmpty s.lc s.weir,
      gates := s.gates.map (fun g => { g with pos := SlotPos.reset }),
      queues := Tab.mapVals Queue.reset (fun _ q => if q.manifest then { q with next := 0, base := q.started } else q) s.queues,
      tier := { s.tier with holdMig := 0, holdStg := 0, drops := 0, poison := 0,
                            manQ := s.tier.manQ.map (fun m => { m with thisRun := false }) },
      heat := { s.heat with hot := false }, seals := [], commits := [] }
  match sf.2 with
  | [] => s
  | f :: fs => enterWith f fs s

/-- The answer to a RUN in the configured-idle state (R340). -/
def runStatus (s : State) (pl : Bytes) : DStatus :=
  if s.dev.ident = false then .noIdentity
  else if 2 ^ 48 ≤ fieldB pl 0 8 ∨ 3 < fieldB pl 48 1 ∨ zeroB pl 49 7 = false then .range
  else .ok

/-- RUN: starts a run from the configured-idle state (R159, R340). -/
def execRun (pl : Bytes) (s : State) : Out :=
  vendor 0xC105 false [.configured] (fun s =>
    match runStatus s pl, s.image with
    | .ok, some i => reply .ok [] (startRun i pl s)
    | .ok, none => reply .state [] s
    | d, _ => reply d [] s) s

/-! ## Job tag and epoch (R248) -/

/-- A ring die without parked frames, waiting judgements and tiles, held requests and pending checks; the held requests
count in SHARD_STALE (R248). -/
def clearRing (r : Ring) : Ring :=
  { r with parked := [], stalled := [], bufUsed := 0, waiting := [], reqs := [], checks := [],
           cnt := { r.cnt with shardStale := satAdd r.cnt.shardStale r.reqs.length } }

/-- A sluice after the close of R248; a host sluice is gone (log entry 42). -/
def endSluice (x : Sluice) : Sluice :=
  if x.host then Sluice.reset
  else { x with st := .closed, bits := [], landed := 0, parked := 0, check := if x.check = 1 then 0 else x.check }

/-- The actions of R248 apart from the sealed-mode counters. -/
def endEpoch (s : State) : State :=
  let s := (s.sluices.map Prod.fst).foldl (fun s k => closeSluice k s) s
  let s := { s with sluices := Tab.mapVals Sluice.reset (fun _ x => endSluice x) s.sluices,
                    rings := Tab.mapVals Ring.reset (fun _ r => clearRing r) s.rings }
  endDescs s

/-- A lane with its sealed-mode counters at the start of an epoch (R248, R249). -/
def zeroSeal (l : Lane) : Lane := { l with sealTx := 0, sealRx := none }

/-- A lane under a new tag or epoch: a frame of before meets the filter at its end, and is no more of a sluice (R247, R248). -/
def forgetHead (l : Lane) : Lane := { l with head := none }

/-- Load tag and epoch into a port; the counters of a new epoch start at zero (R247 to R249). -/
def setFilter (tag : BitVec 16) (epoch : BitVec 8) (q : Port) : Port :=
  { q with
    tag := tag, epoch := epoch,
    lanes :=
      if q.tag = tag ∧ q.epoch = epoch then q.lanes
      else Tab.mapVals Lane.reset (fun _ l => if q.epoch = epoch then forgetHead l else forgetHead (zeroSeal l)) q.lanes }

/-- Load tag and epoch into some ports; when that changes any of them, R248 acts. -/
def loadFilter (ps : List Nat) (tag : BitVec 16) (epoch : BitVec 8) (s : State) : State :=
  let changed := ps.any (fun p => (portAt s p).tag != tag || (portAt s p).epoch != epoch)
  let s := if changed then endEpoch s else s
  ps.foldl (fun s p => updPort p (setFilter tag epoch) s) s

/-! ## Logical identity (R287, R340, R356) -/

/-- Whether a manifest or host list executes (R248). -/
def listsExecute (s : State) : Bool := !s.tier.manQ.isEmpty || !s.tier.hostQ.isEmpty

/-- SET_IDENTITY: the logical identity is loaded, and every port takes its tag and epoch (R248, R287, R340, R356). -/
def execSetIdentity (pl : Bytes) (s : State) : Out :=
  vendor 0xC10B false [.ready, .resident, .configured, .safe] (fun s =>
    let rank := fieldB pl 4 2
    let n := fieldB pl 8 2
    if listsExecute s then reply .state [] s
    else if n = 0 ∨ 1023 < n ∨ n ≤ rank ∨ zeroB pl 3 1 = false ∨ zeroB pl 10 6 = false then reply .range [] s
    else
      let tag := BitVec.ofNat 16 (fieldB pl 0 2)
      let epoch := BitVec.ofNat 8 (fieldB pl 2 1)
      let s := loadFilter (List.range 24) tag epoch s
      reply .ok []
        (logEvent 0x0407 0 0 0
          (toLe 2 (fieldB pl 0 2) ++ toLe 1 (fieldB pl 2 1) ++ toLe 2 rank ++ toLe 2 (fieldB pl 6 2) ++ toLe 2 n)
          { s with dev := { s.dev with ident := true },
                   ids := { s.ids with tag := tag, epoch := epoch, rank := rank, stage := fieldB pl 6 2, n := n } })) s

/-! ## Lending (R228, R229, R340) -/

/-- The lowest bundle number that no port outside a mask uses. -/
def freeBundle (mask : Nat) (s : State) : Nat :=
  ((List.range 24).find? (fun b => !s.ports.any (fun e => !bit mask e.1 && e.2.role != 0 && e.2.bundle == b))).getD 0

/-- A port of the lent TIER bundle (R228, R340). -/
def lendPort (bundle member : Nat) (q : Port) : Port :=
  trainUnlessDown { q with role := rTier, bundle := bundle, member := member, sealedReq := false, digestTx := false }

/-- The effect of LEND: the map, the slot bitmap and every USED count are cleared, and the ports form one TIER bundle
under the session's tag and epoch (R228, R247). A failed audit on the way leaves the engine in the safe state (R406, R407). -/
def startLend (l : Lend) (s : State) : State :=
  let ps := maskPorts l.ports
  let b := freeBundle l.ports s
  let s := loadFilter ps l.tag l.epoch s
  if isSafe s then s else
  let s := (ps.zipIdx).foldl (fun s e => updPort e.1 (lendPort b e.2) (cutFrom e.1 s)) s
  logEvent 0x0408 0 0 0 (toLe 8 l.first ++ toLe 8 l.count)
    { s with
      dev := { s.dev with st := .lender },
      tier := { s.tier with
        lend := some l, map := [], inUse := 0,
        accts := Tab.mapVals Account.reset (fun _ a => { a with used := 0 }) s.tier.accts } }

/-- LEND: the engine becomes a lender (R228, R340). It takes the tag and epoch of the session, which R248 bars while a list
executes: STATE then (DESIGN CHOICE, log entry 36). -/
def execLend (pl : Bytes) (s : State) : Out :=
  vendor 0xC10C false [.ready, .resident] (fun s =>
    let l : Lend :=
      { ports := fieldB pl 0 3, tag := BitVec.ofNat 16 (fieldB pl 4 2), epoch := BitVec.ofNat 8 (fieldB pl 6 1),
        first := fieldB pl 8 8, count := fieldB pl 16 8 }
    if listsExecute s then reply .state [] s
    else if zeroB pl 3 1 = false ∨ zeroB pl 7 1 = false ∨ allSlots < l.first + l.count then reply .range [] s
    else reply .ok [] (startLend l s)) s

/-- END_LEND: the engine stops serving and scrubs the lent slots in the background (R229, R340). -/
def execEndLend (s : State) : Out :=
  vendor 0xC10D false [.lender] (fun s => started .endLend { s with dev := { s.dev with st := .scrubbing } }) s

/-- Zeros in a range of flat slots, in every stack it touches (R229). -/
def scrubSlots (first n : Nat) (s : State) : State :=
  (List.range 16).foldl (fun s stack =>
    let lo := max first (stack * slotsPerStack) - stack * slotsPerStack
    let hi := min (first + n) ((stack + 1) * slotsPerStack) - stack * slotsPerStack
    { s with stackMem := Tab.clearRange s.stackMem (slotKey stack lo) (slotKey stack hi),
             stackUpsets := Tab.clearRange s.stackUpsets (slotKey stack lo / 16) (slotKey stack hi / 16) }) s

/-- A lent port after the session: IDLE and powered down; a DOWN port stays DOWN (R241; log entry 40). -/
def unlendPort (q : Port) : Port :=
  { linkZero q with st := if q.st = .down then .down else .off, role := 0, bundle := 0, member := 0, txq := [], ctlq := [],
                    initSent := false, initRx := false }

/-- A lender session ends: its ports are back under the logical identity, with what R248 asks of that change, and IDLE;
a descriptor with a tile on one of them completes with LINK_DOWN (R228, R247, R248, R261; log entry 40). -/
def endSession (l : Lend) (s : State) : State :=
  let ps := maskPorts l.ports
  let s := ps.foldl (fun s p => updPort p unlendPort (cutFrom p (failPort p stLinkDown s)))
    (loadFilter ps s.ids.tag s.ids.epoch s)
  { s with tier := { s.tier with lend := none } }

/-- SCRUB_COMPLETE: every lent slot holds zeros, and the engine leaves lender mode (R229, R340). A failed audit on the way
leaves it in the safe state (R406, R407). -/
def execScrubComplete (s : State) : Out :=
  .next
    (match s.dev.st, s.tier.lend with
     | .scrubbing, some l =>
       let s := endSession l (scrubSlots l.first l.count s)
       if isSafe s then s else
       let s := logEvent 0x0409 0 0 0 (toLe 8 l.first ++ toLe 8 l.count)
         { s with dev := { s.dev with st := if s.resident.isSome then .resident else .ready } }
       finishBg (bgDone 0xC10D .ok) s
     | _, _ => s)

end Sys2Proof.Machine
end

