-- ==== Sys2Proof/Machine/Scalar.lean ====
section
/-! DEFINITION. The scalar instructions that S0 and S1 share (R112 to R114, R79). -/

namespace Sys2Proof.Machine

/-- The ALU functions of one lc (R113); shifts use rs2[5:0]. None for MUL and the reserved codes. -/
def aluFn (fn : Nat) (a b : W64) : Option W64 :=
  match fn with
  | 0 => some (a + b)
  | 1 => some (a - b)
  | 2 => some (a &&& b)
  | 3 => some (a ||| b)
  | 4 => some (a ^^^ b)
  | 5 => some (a <<< (b.toNat % 64))
  | 6 => some (a >>> (b.toNat % 64))
  | 7 => some (a.sshiftRight (b.toNat % 64))
  | 8 => some (if a.slt b then 1 else 0)
  | 9 => some (if a.ult b then 1 else 0)
  | _ => none

/-- The function code of MUL (R113). -/
def fnMul : Nat := 10

/-- Latency of an ALU function (R79, R113). -/
def aluLat (fn : BitVec 11) : Nat := if fn.toNat = fnMul then 3 else 1

/-- What an ALU instruction does: rd := rs1 op rs2; codes 11 to 2,047 are reserved (R111, R113). -/
def aluAct (k : Sc) (rd rs1 rs2 : BitVec 5) (fn : BitVec 11) : Act := fun c _ now w =>
  if fn.toNat = fnMul then
    w.on (fun cl => later (now + 3) (.g k rd.toNat (rg c k w rs1 * rg c k w rs2)) (stepPc k cl))
  else
    match aluFn fn.toNat (rg c k w rs1) (rg c k w rs2) with
    | some v => (putG k rd v w).on (stepPc k)
    | none => w.fail c cFetch (scalarCore k w.cl).pc

/-- ALU: rd := rs1 op rs2; MUL takes three lc, every other function one (R113). -/
def execAlu (c : Nat) (k : Sc) (rd rs1 rs2 : BitVec 5) (fn : BitVec 11) (s : State) : Out :=
  scalarCmd c k (gDst rd (aluLat fn)) (aluAct k rd rs1 rs2 fn) s

/-- The result of ADDI. -/
def addiFn (rs1 : BitVec 5) (imm : BitVec 16) (g : BitVec 5 → W64) : W64 := g rs1 + imm.signExtend 64
/-- The result of ANDI. -/
def andiFn (rs1 : BitVec 5) (imm : BitVec 16) (g : BitVec 5 → W64) : W64 := g rs1 &&& imm.setWidth 64
/-- The result of ORI. -/
def oriFn (rs1 : BitVec 5) (imm : BitVec 16) (g : BitVec 5 → W64) : W64 := g rs1 ||| imm.setWidth 64
/-- The result of XORI. -/
def xoriFn (rs1 : BitVec 5) (imm : BitVec 16) (g : BitVec 5 → W64) : W64 := g rs1 ^^^ imm.setWidth 64

/-- ADDI: rd := rs1 + simm16 (R113). -/
def execAddi (c : Nat) (k : Sc) (rd rs1 : BitVec 5) (imm : BitVec 16) (s : State) : Out :=
  scalarOp c k rd (addiFn rs1 imm) s

/-- ANDI: rd := rs1 and zero-extended imm16 (R113). -/
def execAndi (c : Nat) (k : Sc) (rd rs1 : BitVec 5) (imm : BitVec 16) (s : State) : Out :=
  scalarOp c k rd (andiFn rs1 imm) s

/-- ORI: rd := rs1 or zero-extended imm16 (R113). -/
def execOri (c : Nat) (k : Sc) (rd rs1 : BitVec 5) (imm : BitVec 16) (s : State) : Out :=
  scalarOp c k rd (oriFn rs1 imm) s

/-- XORI: rd := rs1 xor zero-extended imm16 (R113). -/
def execXori (c : Nat) (k : Sc) (rd rs1 : BitVec 5) (imm : BitVec 16) (s : State) : Out :=
  scalarOp c k rd (xoriFn rs1 imm) s

/-- The shift of SHI by its code; none for code 3 (R113). -/
def shiftImm (op n : Nat) (a : W64) : W64 := if op = 0 then a <<< n else if op = 1 then a >>> n else a.sshiftRight n

/-- What SHI does: code 3 and non-zero imm16[13:6] are reserved (R111, R113). -/
def shiAct (k : Sc) (rd rs1 : BitVec 5) (imm : BitVec 16) : Act := fun c _ _ w =>
  if bits imm.toNat 15 14 = 3 ∨ bits imm.toNat 13 6 ≠ 0 then w.fail c cFetch (scalarCore k w.cl).pc
  else (putG k rd (shiftImm (bits imm.toNat 15 14) (bits imm.toNat 5 0) (rg c k w rs1)) w).on (stepPc k)

/-- SHI: shift by imm16[5:0] (R113). -/
def execShi (c : Nat) (k : Sc) (rd rs1 : BitVec 5) (imm : BitVec 16) (s : State) : Out :=
  scalarCmd c k (gDst rd 1) (shiAct k rd rs1 imm) s

/-- The result of MOVK. -/
def movkFn (rd : BitVec 5) (q : BitVec 2) (imm : BitVec 16) (g : BitVec 5 → W64) : W64 :=
  (g rd &&& ~~~((0xFFFF#64) <<< (16 * q.toNat))) ||| ((imm.setWidth 64) <<< (16 * q.toNat))

/-- MOVK: bits [16Q+15:16Q] of rd := imm16, the others kept (R113). -/
def execMovk (c : Nat) (k : Sc) (rd : BitVec 5) (q : BitVec 2) (imm : BitVec 16) (s : State) : Out :=
  scalarOp c k rd (movkFn rd q imm) s

/-- What a branch does: taken when the comparison holds (R113, R114), in a gang when the leader's does (R132). -/
def branchAct (k : Sc) (rs1 rs2 : BitVec 5) (off : BitVec 16) (p : W64 → W64 → Bool) : Act := fun c ld _ w =>
  if p (steer c k ld rs1) (steer c k ld rs2) then takeJump c k off.toInt w else w.on (stepPc k)

/-- A branch. -/
def branchOp (c : Nat) (k : Sc) (rs1 rs2 : BitVec 5) (off : BitVec 16) (p : W64 → W64 → Bool) (s : State) : Out :=
  scalarCmd c k none (branchAct k rs1 rs2 off p) s

/-- BEQ (R113). -/
def execBeq (c : Nat) (k : Sc) (rs1 rs2 : BitVec 5) (off : BitVec 16) (s : State) : Out :=
  branchOp c k rs1 rs2 off (fun a b => a == b) s

/-- BNE (R113). -/
def execBne (c : Nat) (k : Sc) (rs1 rs2 : BitVec 5) (off : BitVec 16) (s : State) : Out :=
  branchOp c k rs1 rs2 off (fun a b => a != b) s

/-- BLT, signed (R113). -/
def execBlt (c : Nat) (k : Sc) (rs1 rs2 : BitVec 5) (off : BitVec 16) (s : State) : Out :=
  branchOp c k rs1 rs2 off (fun a b => a.slt b) s

/-- BGE, signed (R113). -/
def execBge (c : Nat) (k : Sc) (rs1 rs2 : BitVec 5) (off : BitVec 16) (s : State) : Out :=
  branchOp c k rs1 rs2 off (fun a b => b.sle a) s

/-- BLTU (R113). -/
def execBltu (c : Nat) (k : Sc) (rs1 rs2 : BitVec 5) (off : BitVec 16) (s : State) : Out :=
  branchOp c k rs1 rs2 off (fun a b => a.ult b) s

/-- BGEU (R113). -/
def execBgeu (c : Nat) (k : Sc) (rs1 rs2 : BitVec 5) (off : BitVec 16) (s : State) : Out :=
  branchOp c k rs1 rs2 off (fun a b => b.ule a) s

/-- What JMP does. -/
def jmpAct (k : Sc) (off : BitVec 26) : Act := fun c _ _ w => takeJump c k off.toInt w

/-- JMP: jump by simm26 (R113). -/
def execJmp (c : Nat) (k : Sc) (off : BitVec 26) (s : State) : Out :=
  scalarCmd c k none (jmpAct k off) s

/-- What CALL does: the stack holds four (R114; log entry 19 for a fifth). -/
def callAct (k : Sc) (off : BitVec 26) : Act := fun c _ _ w =>
  let x := scalarCore k w.cl
  if 4 ≤ x.rets.length then w.fail c cFetch x.pc
  else w.on (setScalar k { x with rets := (x.pc + 4) :: x.rets, pc := targetOf x.pc off.toInt })

/-- CALL: push the return address, then jump (R113, R114). -/
def execCall (c : Nat) (k : Sc) (off : BitVec 26) (s : State) : Out := scalarCmd c k none (callAct k off) s

/-- What RET does (log entry 19 for an empty stack). -/
def retAct (k : Sc) : Act := fun c _ _ w =>
  let x := scalarCore k w.cl
  match x.rets with
  | [] => w.fail c cFetch x.pc
  | r :: rs => w.on (fun cl => goTo k r (setScalar k { x with rets := rs } cl))

/-- RET: pop and jump (R113). -/
def execRet (c : Nat) (k : Sc) (s : State) : Out := scalarCmd c k none (retAct k) s

/-- Whether a loop body that ends at `stop` passes the end of the body that encloses it (R114). -/
def overruns (x : ScalarCore) (stop : Nat) : Bool := (bodyAt x).any (fun l => decide (l.stop < stop))

/-- What LOOP does: LEN 0, a fifth nested loop and a body beyond the enclosing one are reserved (R114). -/
def loopAct (k : Sc) (rs : BitVec 5) (len : BitVec 10) : Act := fun c ld _ w =>
  let x := scalarCore k w.cl
  let n := (steer c k ld rs).toNat % 2 ^ 32
  let stop := x.pc + 4 + 4 * len.toNat
  if len = 0 ∨ 4 ≤ x.loops.length ∨ overruns x stop = true then w.fail c cFetch x.pc
  else if n = 0 then w.on (goTo k stop)
  else w.on (setScalar k { x with pc := x.pc + 4, loops := { left := n, start := x.pc + 4, stop := stop } :: x.loops })

/-- LOOP: repeat the LEN instructions that follow g[rs][31:0] times; none when the count is zero (R114). -/
def execLoop (c : Nat) (k : Sc) (rs : BitVec 5) (len : BitVec 10) (s : State) : Out := scalarCmd c k none (loopAct k rs len) s

/-- Stop issuing for `n` further lc (R113). -/
def waitFor (k : Sc) (n now : Nat) (cl : Cluster) : Cluster :=
  let cl := stepPc k cl
  setScalar k { scalarCore k cl with ready := now + 1 + n, st := if n = 0 then .issuing else .waiting } cl

/-- What WAIT does. -/
def waitAct (k : Sc) (imm : BitVec 20) : Act := fun _ _ now w => w.on (waitFor k imm.toNat now)

/-- WAIT: occupies its issue lc and imm20 further lc (R113). -/
def execWait (c : Nat) (k : Sc) (imm : BitVec 20) (s : State) : Out := scalarCmd c k none (waitAct k imm) s

/-- What WAITR does. -/
def waitrAct (k : Sc) (rs : BitVec 5) : Act := fun c ld now w => w.on (waitFor k ((steer c k ld rs).toNat % 2 ^ 32) now)

/-- WAITR: as WAIT with the count g[rs][31:0] (R113). -/
def execWaitr (c : Nat) (k : Sc) (rs : BitVec 5) (s : State) : Out := scalarCmd c k none (waitrAct k rs) s

end Sys2Proof.Machine
end

