-- ==== Sys2Proof/Machine/VecTable.lean ====
section
/-! DEFINITION. Table units: the shape descriptor, segment and position, evaluation, and the two table instructions
(R65 to R68, R127). -/

namespace Sys2Proof.Machine

/-! ## The shape descriptor (R65) -/

/-- Descriptor of a table image, bytes 4,096 to 4,111. -/
def tabDesc (u : TableUnit) : Nat := leNat (Mem.read 0 u.img 4096 16)

/-- Coefficient i of segment k. -/
def coef (u : TableUnit) (k i : Nat) : FVal := f32 (BitVec.ofNat 32 (leNat (Mem.read 0 u.img (16 * k + 4 * i) 4)))

/-- KIND. -/
def tabKind (d : Nat) : Nat := bits d 63 60
/-- EDGE. -/
def tabEdge (d : Nat) : Nat := bits d 59 58
/-- POST. -/
def tabPost (d : Nat) : Nat := bits d 57 56
/-- E0. -/
def tabE0 (d : Nat) : Nat := bits d 55 48
/-- MB. -/
def tabMb (d : Nat) : Nat := bits d 47 44
/-- BASE. -/
def tabBase (d : Nat) : W32 := BitVec.ofNat 32 (bits d 127 96)
/-- SCALE. -/
def tabScale (d : Nat) : W32 := BitVec.ofNat 32 (bits d 95 64)

/-- Whether a descriptor holds no reserved code and no non-zero reserved field (R65, R67). -/
def tabOk (d : Nat) : Bool :=
  let k := tabKind d
  decide (k ≤ 3) && (if k = 0 then decide (tabEdge d ≤ 1) else tabEdge d == 0) && decide (tabPost d ≤ 1) &&
    (k != 1 || decide (tabMb d ≤ 8)) && (k != 2 || decide (tabMb d ≤ 7)) && bits d 43 0 == 0 &&
    (k == 0 || tabBase d == 0) && (k == 0 || k == 3 || tabScale d == 0)

/-! ## Segment and position (R66) -/

/-- Floor of a finite value. -/
def floorVal : FVal → Int
  | .fin neg m e =>
    let n : Nat := if 0 ≤ e then m * 2 ^ e.toNat else m / 2 ^ (-e).toNat
    let whole : Bool := decide (0 ≤ e) || m % 2 ^ (-e).toNat == 0
    if neg then (if whole then -(n : Int) else -(n : Int) - 1) else n
  | _ => 0

/-- An integer as a value. -/
def intVal (n : Int) : FVal := .fin (decide (n < 0)) n.natAbs 0

/-- Subtract an integer, exactly. -/
def minusInt (w : FVal) (n : Int) : FVal := w.add (intVal n).neg

/-- What R66 makes of an input: an immediate result, or a segment with its position and the power of two of kind 3. -/
inductive TabPos where
  | done (r : FRes)
  | seg (idx : Nat) (t : FVal) (scale : Int)
deriving DecidableEq, Repr

/-- The value 1.0. -/
def oneVal : FVal := .fin false 1 0

/-- Kind 0, from the scaled input w. A NaN makes the position w − idx a NaN, whatever the index (log entry 23). -/
def pos0 (clamp : Bool) (w : FVal) : TabPos :=
  match w with
  | .nan => .seg 0 .nan 0
  | .inf true => .seg 0 (.fin false 0 0) 0
  | .inf false => .seg 255 oneVal 0
  | .fin neg m e =>
    let n := floorVal (.fin neg m e)
    if n < 0 then .seg 0 (if clamp then .fin false 0 0 else .fin neg m e) 0
    else if 256 ≤ n then .seg 255 (if clamp then oneVal else f32 (roundF32 (minusInt (.fin neg m e) 255)).bits) 0
    else .seg n.toNat (minusInt (.fin neg m e) n) 0

/-- Kinds 1 and 2, from the exponent and mantissa fields of x, as R66's pseudocode has it: with E0 and MB zero in kind
1 an infinity is no exponent above the range, and its position is 0 (log entry 73). -/
def pos12 (kind e0 mb x : Nat) : TabPos :=
  let eb := (if kind = 1 then 8 else 7) - mb
  let ex := bits x 30 23
  let mt := bits x 22 0
  let kt : Nat × FVal :=
    if ex < e0 then (0, .fin false 0 0)
    else if 2 ^ eb - 1 < ex - e0 then (2 ^ (eb + mb) - 1, oneVal)
    else ((ex - e0) * 2 ^ mb + mt / 2 ^ (23 - mb), .fin false (mt % 2 ^ (23 - mb)) (-((23 - mb : Nat) : Int)))
  .seg (kt.1 + (if kind = 2 then 128 * b2n (bit x 31) else 0)) kt.2 0

/-- Kind 3, from the scaled input w. -/
def pos3 (w : FVal) : TabPos :=
  match w with
  | .nan => .seg 0 .nan 0
  | .inf true => .done { bits := 0, nan := false, ovf := false }
  | .inf false => .done { bits := 0x7F800000, nan := false, ovf := true }
  | .fin neg m e =>
    if (minusInt (.fin neg m e) (-150)).negative then .done { bits := 0, nan := false, ovf := false }
    else
      let n := floorVal (.fin neg m e)
      if 128 ≤ n then .done { bits := 0x7F800000, nan := false, ovf := true }
      else
        let g := (minusInt (.fin neg m e) n).mul (.fin false 1 8)
        .seg (floorVal g).toNat (minusInt g (floorVal g)) n

/-- R66. -/
def tabPos (d : Nat) (x : W32) : TabPos :=
  if (f32 x).isNaN then .done (roundF32 .nan)
  else if tabKind d = 0 then pos0 (tabEdge d == 0) (f32 (fmul32 (fsub32 x (tabBase d)).bits (tabScale d)).bits)
  else if tabKind d = 3 then pos3 (f32 (fmul32 x (tabScale d)).bits)
  else pos12 (tabKind d) (tabE0 d) (tabMb d) x.toNat

/-! ## Evaluation (R67) -/

/-- One rounded step after another: the overflow of either counts. -/
def andThen (r : FRes) (f : FVal → FVal) : FRes :=
  let q := roundF32 (f (f32 r.bits))
  { q with ovf := r.ovf || q.ovf }

/-- The value of an FP32 input under a table unit's image (R67). -/
def tabEval (u : TableUnit) (x : W32) : FRes :=
  let d := tabDesc u
  match tabPos d x with
  | .done r => r
  | .seg k t n =>
    let p := roundF32 (((coef u k 3).mul t).add (coef u k 2))
    let p := andThen p (fun y => (y.mul t).add (coef u k 1))
    let y := andThen p (fun y => (y.mul t).add (coef u k 0))
    let y := if tabKind d = 3 then andThen y (fun y => y.mul (.fin false 1 n)) else y
    if tabPost d = 1 then andThen y (fun y => y.mul (f32 x)) else y

/-! ## Instructions -/

/-- Whether a load into a table unit is in progress in an lc (R61, R65). -/
def tabLoading (now : Nat) (u : TableUnit) : Bool := decide (u.loadFrom ≤ now) && decide (now < u.loadTo)

/-- A table instruction on the named unit: use during a load is a schedule collision, a bad descriptor a descriptor
fault (R61, R65, R67). -/
def tableOp (c v : Nat) (deriv : Bool) (ok : Bool) (f : Nat → TableUnit → Work → Work) (s : State) : Out :=
  vecCmd c v (fun now w =>
    let u := if deriv then (vecCore v w.cl).der else (vecCore v w.cl).fwd
    if ok = false then vecIllegal c v w
    else if tabLoading now u then w.fail c cCollision (12 + v)
    else if tabOk (tabDesc u) = false then w.fail c cDescriptor (12 + v)
    else f now u w) s

/-- TEVAL: table evaluation of VA with the forward or the derivative unit, nine lc (R60, R66, R67). -/
def execTeval (c v : Nat) (vd va : BitVec 5) (m : BitVec 3) (fn : BitVec 8) (s : State) : Out :=
  tableOp c v (fn == 1) (decide (fn.toNat < 2)) (fun now u w =>
    putF c now 9 v vd (vm v w m) (fun l => tabEval u (lane (vr v w va) l)) w) s

/-- TGRAD: VB times the derivative evaluation of VA, rounded once more, twelve lc (R60, R68). -/
def execTgrad (c v : Nat) (vd va vb : BitVec 5) (m : BitVec 3) (fn : BitVec 8) (s : State) : Out :=
  tableOp c v true (decide (fn = 0)) (fun now u w =>
    putF c now 12 v vd (vm v w m) (fun l =>
      andThen (tabEval u (lane (vr v w va) l)) (fun y => (f32 (lane (vr v w vb) l)).mul y)) w) s

end Sys2Proof.Machine
end

