-- ==== Sys2Proof/Machine/ProgCheck.lean ====
section
/-! DEFINITION. The checks of CONFIGURE on what one cluster holds: S-mem directory and regions, station and vector
programs, descriptors, scoreboard templates, routes (R85 to R87, R96, R98, R108 to R131, R133, R138, R139, R143,
R145, R179, R190). -/

namespace Sys2Proof.Machine

/-- Bytes that a record of the manifest writes: from where in its space (space times 2^32 plus offset), how many, the
manifest offset of the first, and after how many the record repeats (R187). -/
structure Written where
  base : Nat
  size : Nat
  at_ : Nat
  period : Nat
deriving DecidableEq, Repr

/-- Where a cluster's checks report: section, offset of its CLUSTER record, position, and what its records write. -/
structure Place where
  sect : Nat
  off : Nat
  x : Nat
  y : Nat
  stores : List Written
deriving DecidableEq, Repr

/-- A check on a cluster. -/
def failAt (p : Place) (bad : Bool) (code : Nat) : Verdict :=
  if bad then some { code := code, sect := p.sect, off := p.off, x := p.x, y := p.y, smem := none } else none

/-- The manifest offset of a byte of a space: where a record holds it, or the CLUSTER record when none does (log entry
43). -/
def Place.byteAt (p : Place) (space o : Nat) : Nat :=
  let a := space * 2 ^ 32 + o
  match p.stores.find? (fun w => decide (w.base ≤ a) && decide (a < w.base + w.size)) with
  | some w => w.at_ + (a - w.base) % w.period
  | none => p.off

/-- A check on a word of a cluster's control memory: space 1 S-mem, 2 and 3 the route-table banks (R111). -/
def failWord (p : Place) (space o : Nat) (bad : Bool) (code : Nat) : Verdict :=
  if bad then
    some { code := code, sect := p.sect, off := p.byteAt space o, x := p.x, y := p.y,
           smem := if space = 1 then some o else none }
  else none

/-- A check on each word of a table of S-mem, with its index. -/
def failWords (p : Place) (base unit : Nat) (bad : Nat → Nat → Bool) (code : Nat) (ws : List Nat) : Verdict :=
  failOver (fun e => failWord p 1 (base + unit * e.2) (bad e.2 e.1) code) ws.zipIdx

/-! ## S-mem directory (R108, R109) -/

/-- A region of S-mem: base, bytes. -/
structure Region where
  base : Nat
  size : Nat
deriving DecidableEq, Repr

/-- The region named at a directory offset, whose count word counts units of `unit` bytes. -/
def region (cl : Cluster) (off unit : Nat) : Region := { base := dirWord cl off, size := dirWord cl (off + 2) * unit }

/-- The regions of a directory: S0, S1, vector programs, macro-operation and auxiliary descriptors, templates. -/
def regions (cl : Cluster) : List Region :=
  [region cl 0x04 1, region cl 0x08 1, region cl 0x0C 1, region cl 0x10 16, region cl 0x14 16, region cl 0x18 16]

/-- Alignments of the regions' bases and sizes. -/
def regionAlign : List Nat := [4, 4, 8, 16, 16, 16]

/-- The initial register block as a region; empty when there is none. -/
def initRegion (cl : Cluster) : Region := { base := dirWord cl 0x1C, size := if dirWord cl 0x1C = 0 then 0 else 512 }

/-- The offsets of the directory fields that hold a reserved value (R108). -/
def dirReserved (cl : Cluster) : List Nat :=
  (if dirWord cl 0x00 = 1 then [] else [0x00]) ++ (if dirWord cl 0x02 < 4 then [] else [0x02]) ++
    (if dirWord cl 0x1E = 0 then [] else [0x1E]) ++ (if zeroB (Mem.read 0 cl.smem 0x24 28) 0 28 then [] else [0x24])

/-- The layout rules of the directory (R108, R109). -/
def dirLayoutOk (cl : Cluster) : Bool :=
  let rs := regions cl
  let i := initRegion cl
  (rs.zip regionAlign).all (fun e =>
    e.1.base % e.2 == 0 && e.1.size % e.2 == 0 && (e.1.size != 0 || e.1.base == 0) && decide (e.1.size ≤ 32768 * e.2)) &&
  [0x12, 0x16, 0x1A].all (fun o => decide (dirWord cl o ≤ 2048)) && i.base % 8 == 0 &&
  (rs ++ [i]).all (fun r => r.size == 0 || (decide (0x40 ≤ r.base) && decide (r.base + r.size ≤ 0xC000))) &&
  apart ((rs ++ [i]).map (fun r => (r.base, r.base + r.size))) &&
  (i.size == 0 || ((Mem.read 0 cl.smem i.base 8 ++ Mem.read 0 cl.smem (i.base + 256) 8).all (· == 0)))

/-! ## Scalar programs (R111 to R121) -/

/-- The words of a region, `n` bytes each. -/
def regionWords (cl : Cluster) (r : Region) (n : Nat) : List Nat :=
  (List.range (r.size / n)).map (fun i => leNat (Mem.read 0 cl.smem (r.base + n * i) n))

/-- Whether a scalar word is an encoding that the core may execute, no reserved field set (R112 to R121). -/
def scalarOk (k : Sc) (w : Nat) : Bool :=
  let op := bits w 31 26
  let s0 := k == .s0
  if op = 0x01 then decide (bits w 10 0 ≤ 10)
  else if 0x02 ≤ op ∧ op ≤ 0x05 then true
  else if op = 0x06 then bits w 15 14 != 3 && bits w 13 6 == 0
  else if op = 0x07 then bits w 18 16 == 0
  else if 0x08 ≤ op ∧ op ≤ 0x0F then true
  else if op = 0x10 then bits w 25 0 == 0
  else if op = 0x11 then bits w 20 11 != 0 && bits w 10 0 == 0
  else if op = 0x12 then bits w 25 20 == 0
  else if op = 0x13 then bits w 20 0 == 0
  else if op = 0x18 then s0 && decide (bits w 25 22 < 12) && (bit w 10 || bits w 9 7 == 0) && bits w 6 0 == 0
  else if op = 0x19 then s0 && decide (bits w 25 23 < 6) && bits w 9 0 == 0
  else if op = 0x1A then s0 && bits w 11 0 == 0
  else if op = 0x1B then s0 && bits w 7 0 == 0
  else if op = 0x1C then s0 && bits w 25 0 == 0
  else if op = 0x20 then !s0 && bits w 25 24 == 0 && (!bit w 20 || bits w 19 18 == 0)
  else if op = 0x21 then !s0 && bits w 14 13 == 0 && (!bit w 20 || bits w 19 18 == 0)
  else if op = 0x22 then
    !s0 && decide (bits w 19 17 ≤ 5) && !bit w 16 && (!([1, 2, 4].contains (bits w 19 17)) || bits w 15 5 == 0)
  else if op = 0x23 then !s0 && bits w 17 0 == 0
  else if op = 0x24 then !s0 && decide (bits w 25 23 < 6) && (!bit w 21 || bits w 20 19 == 0) && bits w 15 0 == 0
  else if op = 0x25 then
    !s0 && decide (bits w 25 23 < 6) && !bit w 22 && (!bit w 21 || bits w 20 19 == 0) && bits w 15 0 == 0
  else if op = 0x26 then !s0 && bits w 25 0 == 0
  else false

/-- Opcode of a scalar word. -/
def sop (w : Nat) : Nat := bits w 31 26

/-- Target of a branch, jump or call at an index, in words of the program; none for other words (R112). -/
def branchTarget (i w : Nat) : Option Int :=
  if 0x08 ≤ sop w ∧ sop w ≤ 0x0D then some ((i : Int) + sext 16 w)
  else if sop w = 0x0E ∨ sop w = 0x0F then some ((i : Int) + sext 26 w)
  else none

/-- The loop bodies of a program, first and last word (R114). -/
def loopBodies (ws : List Nat) : List (Nat × Nat) :=
  ws.zipIdx.filterMap (fun e => if sop e.1 = 0x11 then some (e.2 + 1, e.2 + bits e.1 20 11) else none)

/-- Whether an index lies in a loop body. -/
def inBody (b : Nat × Nat) (i : Int) : Bool := decide ((b.1 : Int) ≤ i) && decide (i ≤ (b.2 : Int))

/-- The nesting rules of R114. -/
def loopsOk (ws : List Nat) : Bool :=
  let bs := loopBodies ws
  bs.all (fun a =>
    decide ((bs.filter (fun b => inBody b a.1)).length ≤ 4) &&
      bs.all (fun b => !(inBody b ((a.1 : Int) - 1)) || decide (a.2 ≤ b.2))) &&
  ws.zipIdx.all (fun e =>
    if sop e.1 = 0x0F then true
    else match branchTarget e.2 e.1 with
      | none => true
      | some t => bs.all (fun b => inBody b e.2 == inBody b t))

/-- Whether an S-mem offset starts an instruction in a region. -/
def startsIn (r : Region) (a : Nat) : Bool := decide (r.base ≤ a) && decide (a < r.base + r.size)

/-- Whether every target of a word lies in its region (R111, R114, R117). -/
def targetsOk (cl : Cluster) (n i w : Nat) : Bool :=
  (match branchTarget i w with
   | some t => decide (0 ≤ t) && decide (t < (n : Int))
   | none => true) &&
  (sop w != 0x11 || decide (i + bits w 20 11 < n)) &&
  (sop w != 0x19 || startsIn (region cl 0x0C 1) (8 * bits w 22 10)) &&
  (sop w != 0x1A || startsIn (region cl 0x08 1) (4 * bits w 25 12))

/-- The macro-operation descriptor words of a cluster (R122). -/
def mopWords (cl : Cluster) : List Nat := regionWords cl (region cl 0x10 16) 16

/-- The auxiliary descriptor words of a cluster (R125). -/
def auxWords (cl : Cluster) : List Nat := regionWords cl (region cl 0x14 16) 16

/-- The macro-operation that a descriptor word gives, without address substitution. -/
def mopAt (cl : Cluster) (x : Nat) : Macro :=
  macroOf x 0 (if bit x 94 then (auxWords cl)[bits x 25 15]?.map auxOf else none) none

/-- Whether a descriptor word suits a core (R121 to R123, R125). -/
def mopSuits (cl : Cluster) (core x : Nat) : Bool :=
  let m := mopAt cl x
  macroOk core x m &&
  (if bit x 94 then (auxWords cl)[bits x 25 15]?.any (fun a => auxOk m a (auxOf a)) else bits x 25 15 == 0)

/-- Whether a MOP word names a descriptor that suits its core, and gives addresses that keep R87. -/
def mopWordOk (cl : Cluster) (w : Nat) : Bool :=
  match (mopWords cl)[bits w 21 11]? with
  | none => false
  | some x =>
    let m := mopAt cl x
    mopSuits cl (bits w 25 22) x && (m.count == 0 || (descAddrOk m && (bit w 10 || bAddrOk m)))

/-- The weir-table entry of a weir number, with its index. -/
def weirNumbered (ws : List WeirEntry) (n : Nat) : Option (WeirEntry × Nat) :=
  ws.zipIdx.find? (fun e => e.1.num == n)

/-- The checks on a WEIR or STOP word against the weir table and its neighbours (R118 to R120, R157, R158). -/
def weirWordVerdict (p : Place) (src cl : Cluster) (k : Sc) (weirs : List WeirEntry) (ws : List Nat) (i w : Nat) : Verdict :=
  let fail := failWord p 1 ((region src (regionOff k) 1).base + 4 * i)
  let next := (ws[i + 1]?.map sop).getD 0
  let final := (weirs.getLast?.map (fun e => e.num)).getD 0
  if sop w = 0x1B then
    match weirNumbered weirs (bits w 25 10) with
    | none => fail true 0x000D
    | some (e, ix) =>
      firstFail
        [fail (ix == 0 || bit w 9 != e.relay || bit w 8 != e.sent) 0x000D,
         fail (bit w 9 && next != 0x0E) 0x000A,
         fail (bit w 8 && sentScratch cl == 0) 0x000A,
         fail (e.num == final && next != 0x1C) 0x000D]
  else if sop w = 0x1C then
    fail (i == 0 || sop (ws.getD (i - 1) 0) != 0x1B || bits (ws.getD (i - 1) 0) 25 10 != final) 0x000A
  else none

/-- The checks on a scalar program, whose words cluster `src` holds and a core of cluster `cl` issues (R111, R132). -/
def scalarVerdict (p : Place) (src cl : Cluster) (weirs : List WeirEntry) (k : Sc) : Verdict :=
  let r := region src (regionOff k) 1
  let ws := regionWords src r 4
  firstFail
    [failWords p r.base 4 (fun _ w => scalarOk k w == false) 0x0006 ws,
     failWords p r.base 4 (fun i w => targetsOk cl ws.length i w == false) 0x0006 ws,
     failWords p r.base 4 (fun _ w => sop w == 0x18 && mopWordOk cl w == false) 0x0006 ws,
     failAt p (loopsOk ws == false) 0x000A,
     failOver (fun e => weirWordVerdict p src cl k weirs ws e.2 e.1) ws.zipIdx]

/-- The check on the descriptor tables: each word a defined operation of some core (R111, R122 to R125). -/
def descVerdict (p : Place) (cl : Cluster) : Verdict :=
  firstFail
    [failWords p (dirWord cl 0x14) 16 (fun _ a =>
       let d := auxOf a
       bits a 15 0 != 0 || (!d.rm && d.rmask != 0) || (!d.bm && d.bmask != 0)) 0x0006 (auxWords cl),
     failWords p (dirWord cl 0x10) 16 (fun _ x =>
       [0, 4, 8].all (fun core => mopSuits cl core x == false) ||
         ((mopAt cl x).count != 0 && descAddrOk (mopAt cl x) == false)) 0x0006 (mopWords cl)]

/-! ## Vector programs (R126 to R129) -/

/-- The registers an opcode uses, in the order VD, VA, VB, VC, M. -/
structure VecForm where
  vd : Bool
  va : Bool
  vb : Bool
  vc : Bool
  m : Bool
deriving DecidableEq, Repr

/-- Form of an opcode from the letters of its registers: d a b c m. -/
def formOf (s : String) : VecForm :=
  { vd := s.toList.contains 'd', va := s.toList.contains 'a', vb := s.toList.contains 'b', vc := s.toList.contains 'c',
    m := s.toList.contains 'm' }

/-- The registers that each opcode uses (R127); none for a reserved opcode. -/
def vecForm (op : Nat) : Option VecForm :=
  if [0x01, 0x02, 0x03, 0x08, 0x09, 0x0C, 0x18, 0x19, 0x1A, 0x31, 0x3A, 0x3B].contains op ∨ (0x10 ≤ op ∧ op ≤ 0x17) then
    some (formOf "dabm")
  else if [0x04, 0x05, 0x06, 0x07, 0x0D, 0x40].contains op then some (formOf "dabcm")
  else if [0x0A, 0x0B, 0x20, 0x21, 0x22, 0x28, 0x29, 0x2A, 0x30, 0x38, 0x3C, 0x3D, 0x52].contains op then some (formOf "dam")
  else if op = 0x39 then some (formOf "dacm")
  else if [0x48, 0x49, 0x4A, 0x59, 0x5B].contains op then some (formOf "a")
  else if [0x4B, 0x4C, 0x4D, 0x50, 0x60, 0x61].contains op then some (formOf "")
  else if [0x51, 0x58, 0x5A, 0x5C].contains op then some (formOf "dm")
  else none

/-- Whether the register fields and X of a vector word hold no reserved value, given its opcode (R126 to R129). Bits 4 and 3 of
a field that names a mask register are zero for ICMP, CVTS and CVTSF too, where the table states it for FCMP and SEL alone
(DESIGN CHOICE, log entry 95). -/
def vecFieldsOk (op w : Nat) : Bool :=
  let x := bits w 32 0
  let fn := bits x 32 25
  let low := bits x 24 0
  let vd := bits w 55 51
  if op = 0x0C then decide (vd < 8) && decide (fn ≤ 4) && low == 0
  else if op = 0x18 then decide (vd < 8) && decide (fn ≤ 3) && low == 0
  else if op = 0x0D then decide (bits w 40 36 < 8) && x == 0
  else if op = 0x19 ∨ op = 0x1A then vd % 2 == 0 && bits w 50 46 % 2 == 0 && bits w 45 41 % 2 == 0 && x == 0
  else if op = 0x20 then decide (fn < 32) && low == 0
  else if op = 0x21 then decide (fn ≤ 5) && low == 0
  else if op = 0x22 ∨ op = 0x30 then decide (fn < 2) && low == 0
  else if op = 0x38 then bits x 22 0 == 0 && cvtOk (bits x 32 29) (bits x 28 25) (bits x 24 23)
  else if op = 0x39 then bits x 32 29 == 0 && bits x 22 0 == 0 && isMx (bits x 28 25) && decide (bits x 24 23 ≤ 1)
  else if op = 0x3A then bits x 28 0 == 0 && isMx (bits x 32 29)
  else if op = 0x3B then vd % 2 == 0 && x == 0
  else if op = 0x3C then decide (vd < 8) && x == 0
  else if op = 0x3D then decide (bits w 50 46 < 8) && x == 0
  else if op = 0x40 then bits x 27 0 == 0
  else if op = 0x4A then decide (x < 16) && x != 0
  else if op = 0x4C ∨ op = 0x50 then bits x 12 10 == 0
  else if op = 0x51 ∨ op = 0x5A then decide (x < 2)
  else if op = 0x58 ∨ op = 0x59 then decide (bits x 12 10 ≤ 3)
  else if op = 0x5C then decide (x < 2 ^ 32)
  else if op = 0x60 then bits x 32 20 == 0
  else x == 0

/-- Opcode of a vector word. -/
def vop (w : Nat) : Nat := bits w 63 56

/-- Whether a vector word is a defined encoding (R126, R127). -/
def vecOk (w : Nat) : Bool :=
  match vecForm (vop w) with
  | none => false
  | some f =>
    (f.vd || bits w 55 51 == 0) && (f.va || bits w 50 46 == 0) && (f.vb || bits w 45 41 == 0) &&
    (f.vc || bits w 40 36 == 0) && (f.m || bits w 35 33 == 0) && vecFieldsOk (vop w) w

/-- The REP whose block holds an index: its count (R62, R129). -/
def repOver (ws : List Nat) (i : Nat) : Option Nat :=
  ((List.range (min i 16)).find? (fun d =>
    let w := ws.getD (i - 1 - d) 0
    vop w == 0x60 && decide (d ≤ bits w 19 16))).map (fun d => bits (ws.getD (i - 1 - d) 0) 15 0)

/-- The access of a vector memory word in an iteration of its REP (R129): address and width; none for others. -/
def vecAccess (w j : Nat) : Option (Int × Nat) :=
  let at_ (n : Nat) : Option (Int × Nat) := some ((bits w 32 13 : Int) + 8 * (j : Int) * sext 10 w, n)
  if vop w = 0x58 ∨ vop w = 0x59 then at_ ([8, 32, 64, 128].getD (bits w 12 10) 8)
  else if vop w = 0x50 then at_ 32
  else if vop w = 0x4C then at_ 16
  else none

/-- The accesses of a vector memory word over the iterations of its REP. -/
def vecAccesses (ws : List Nat) (i w : Nat) : List (Int × Nat) :=
  (List.range (max 1 ((repOver ws i).getD 1))).filterMap (vecAccess w)

/-- Whether an access keeps R87, given the word's opcode. -/
def vecAccessOk (w : Nat) (a : Int × Nat) : Bool :=
  decide (0 ≤ a.1) &&
  (if vop w = 0x4C then decide (pBase ≤ a.1.toNat) && a.1.toNat % 16 == 0 && decide (a.1.toNat + 16 ≤ dataSize)
   else okAccess a.1.toNat a.2)

/-- The checks on the vector programs. -/
def vectorVerdict (p : Place) (cl : Cluster) : Verdict :=
  let r := region cl 0x0C 1
  let ws := regionWords cl r 8
  firstFail
    [failWords p r.base 8 (fun _ w => vecOk w == false) 0x0006 ws,
     failWords p r.base 8 (fun i w => vop w == 0x60 &&
       ((repOver ws i).isSome || decide (ws.length ≤ i + 1 + bits w 19 16))) 0x0006 ws,
     failWords p r.base 8 (fun i w => (vecAccesses ws i w).any (fun a => vecAccessOk w a == false)) 0x0006 ws]

/-- Whether a cluster's vector programs hold an SCNT (R176). -/
def hasScnt (cl : Cluster) : Bool := (regionWords cl (region cl 0x0C 1) 8).any (fun w => vop w == 0x40)

/-- The vector register into which a word brings row data, or from which it takes them: LD and POP into VD, ST and PUSH
from VA (R69; log entry 83). -/
def rowReg (w : Nat) : Option Nat :=
  if vop w = 0x58 ∨ vop w = 0x5A then some (bits w 55 51) else if vop w = 0x59 ∨ vop w = 0x5B then some (bits w 50 46) else none

/-- Whether a fused kernel that starts at an S-mem offset keeps the limits of R69 up to its END: at most 24 registers of
row data. A core has two table units and MOP one product per queue row, so that the other limits hold of every program
(R187; log entry 83). -/
def kernelOk (cl : Cluster) (a : Nat) : Bool :=
  let r := region cl 0x0C 1
  let ws := (regionWords cl r 8).drop ((a - r.base) / 8)
  startsIn r a && decide ((((ws.takeWhile (fun w => vop w != 0x61)).filterMap rowReg).eraseDups).length ≤ 24)

/-! ## Scoreboard templates (R96, R98, R109, R130, R190) -/

/-- The template words of a cluster. -/
def templateWords (cl : Cluster) : List Nat := regionWords cl (region cl 0x18 16) 16

/-- Rows of the memory that a template names. -/
def memRows (t : Score) : Nat := if t.amem then 1024 else 768

/-- The local bytes that a template guards. -/
def guardBytes (t : Score) : Nat × Nat :=
  let lo := (if t.amem then aBase else 0) + 512 * t.first
  (lo, lo + 512 * t.rows)

/-- Index of a weir number in a weir table; its length when absent. -/
def weirPos (ws : List WeirEntry) (n : Nat) : Nat := ws.findIdx (fun e => e.num == n)

/-- Whether one template keeps R96, R98 and R130 against the weir table. -/
def templateOk (weirs : List WeirEntry) (t : Score) : Bool :=
  decide (t.rows ≤ 1024) && decide (t.expect ≤ t.rows) && decide (t.first + t.rows ≤ memRows t) &&
  decide (weirPos weirs t.arm < weirPos weirs t.rel) && decide (weirPos weirs t.rel < weirs.length) &&
  (t.seg != 1 || (weirNumbered weirs t.arm).any (fun e => e.1.relay))

/-- The templates that can be armed or done together just after the weir at an index, when it, like every weir before,
releases into its relay segment or not (R97, R98). -/
def armedAt (weirs : List WeirEntry) (ts : List Score) (i : Nat) : List Score :=
  ts.filter (fun t => decide (weirPos weirs t.arm ≤ i) && decide (i < weirPos weirs t.rel))

/-- The largest number of entries that some choice of segments keeps at an index: per arming weir, the larger side. -/
def worstArmed (weirs : List WeirEntry) (ts : List Score) (i : Nat) : Nat :=
  ((armedAt weirs ts i).map (fun t => t.arm)).eraseDups.foldl (fun n a =>
    let here := (armedAt weirs ts i).filter (fun t => t.arm == a)
    n + max (here.filter (fun t => t.seg != 1)).length (here.filter (fun t => t.seg != 0)).length) 0

/-- Whether two templates are never armed on one path: one weir, opposite segments. -/
def exclusive (a b : Score) : Bool := a.arm == b.arm && ((a.seg == 0 && b.seg == 1) || (a.seg == 1 && b.seg == 0))

/-- Whether two templates can be armed or done together and overlap (R98); one without rows guards none (R97). -/
def overlapping (weirs : List WeirEntry) (a b : Score) : Bool :=
  a.rows != 0 && b.rows != 0 && a.amem == b.amem && decide (a.first < b.first + b.rows) && decide (b.first < a.first + a.rows) &&
  decide (weirPos weirs a.arm < weirPos weirs b.rel) && decide (weirPos weirs b.arm < weirPos weirs a.rel) && !exclusive a b

/-- Whether some two elements of a list are related. -/
def anyPair {α : Type} (f : α → α → Bool) : List α → Bool
  | [] => false
  | a :: as => as.any (f a) || anyPair f as

/-- The checks on the scoreboard templates. -/
def templateVerdict (p : Place) (cl : Cluster) (weirs : List WeirEntry) (runBlock : Nat) : Verdict :=
  let xs := templateWords cl
  let ts := xs.map templateOf
  let word := failWords p (dirWord cl 0x18) 16
  firstFail
    [word (fun _ x => bits x 82 64 != 0 || bits x 26 0 != 0 || bits x 28 27 == 3) 0x0006 xs,
     word (fun _ x => bits x 95 83 != 0 || decide (2 ≤ bits x 63 62)) 0x000B xs,
     failAt p ((ts.zip (ts.drop 1)).any (fun e => decide (e.2.arm < e.1.arm))) 0x000A,
     word (fun _ x => templateOk weirs (templateOf x) == false) 0x000B xs,
     failAt p (anyPair (overlapping weirs) ts) 0x000B,
     failAt p ((List.range weirs.length).any (fun i => decide (64 < worstArmed weirs ts i))) 0x000B,
     word (fun _ x => decide ((guardBytes (templateOf x)).1 < runBlock + 64) &&
       decide (runBlock < (guardBytes (templateOf x)).2)) 0x000D xs]

/-! ## Slot lists (R143, R145, R189) -/

/-- A slot list: where its segment run starts, where its hold run starts, and the hold run's closing entry. -/
structure SlotList where
  start : Nat
  hold : Nat
  close : Nat
deriving DecidableEq, Repr

/-- The lists of a bank of `n` entries from an index on; none when its last list is not marked (R143). -/
def slotLists (ent : Nat → Nat) (n : Nat) : Nat → Nat → Option (List SlotList)
  | 0, _ => none
  | fuel + 1, i =>
    let e := findEnd ent n i
    let c := findEnd ent n (e + 1)
    if n ≤ e ∨ n ≤ c then none
    else
      let l : SlotList := { start := i, hold := e + 1, close := c }
      if bit (ent c) 1 then some [l] else (slotLists ent n fuel (c + 1)).map (fun ls => l :: ls)

/-- Indices from one up to, not including, another. -/
def span (a b : Nat) : List Nat := (List.range (b - a)).map (· + a)

/-- What R143 asks of a bank's entries besides the lists themselves: the mark in no other hold-run entry, and zeros
after the last list. -/
def bankOk (ent : Nat → Nat) (n : Nat) (ls : List SlotList) : Bool :=
  ls.all (fun l => (span l.hold l.close).all (fun i => !bit (ent i) 1)) &&
  (match ls.getLast? with
   | some l => (span (l.close + 1) n).all (fun i => ent i == 0)
   | none => false)

/-! ## Routes (R131, R133, R138, R139, R145, R33) -/

/-- Whether a hold-run entry does only what R145 allows. -/
def holdEntryOk (e : Nat) : Bool :=
  [0, 1, 2, 3].all (fun d => decide (srcOut e d ≤ 4)) && decide (srcLocal e ≤ 4) && !usesAdder e && !usesRead e &&
  (srcLocal e == 0 || waddr e == 0x7FFF)

/-- Lc of a segment run before each of its entries. -/
def lcBefore (ent : Nat → Nat) (start i : Nat) : Nat := (span start i).foldl (fun n k => n + bits (ent k) 9 2 + 1) 0

/-- Whether an entry's local addresses stay within R138 and R139. -/
def routeAddrOk (e : Nat) : Bool :=
  let j := if bit e 1 then bits e 9 2 else 0
  (srcLocal e == 0 || (if waddr e = 0x7FFF then !bit e 1 else decide (waddr e + j < 0x7FFF))) &&
  (!usesRead e || decide (bits e 39 25 + j ≤ 0x7FFF))

/-- Whether an entry of cluster `c` uses only links that exist (R133, R147). -/
def routePresent (c e : Nat) : Bool :=
  dirs.all (fun d => (srcOut e (dirNum d) == 0 || (outLink c d).isSome) &&
    (selectsInput e (dirNum d + 1) == false || inPresent c d))

/-- Whether an entry of cluster `c` uses a failed link (R33). -/
def routeFailed (failed : List (Nat × Dir)) (c e : Nat) : Bool :=
  dirs.any (fun d => (srcOut e (dirNum d) != 0 && failed.contains (c, d)) ||
    (selectsInput e (dirNum d + 1) && (neighbour c d).any (fun n => failed.contains (n, opp d))))

/-- The checks on one bank of a route table. -/
def bankVerdict (p : Place) (c : Nat) (cl : Cluster) (bank : Bool) : Verdict :=
  let ent := routeEntry cl bank
  let entry (bad : Nat → Bool) (code : Nat) (is : List Nat) : Verdict :=
    failOver (fun i => failWord p (2 + b2n bank) (8 * i) (bad i) code) is
  let is := List.range 1024
  firstFail
    [entry (fun i => routeReserved (ent i)) 0x0006 is,
     match slotLists ent 1024 1024 0 with
     | none => failAt p true 0x000C
     | some ls =>
       firstFail
         [failAt p (bankOk ent 1024 ls == false) 0x000C,
          entry (fun i => routePresent c (ent i) == false || routeAddrOk (ent i) == false) 0x000C is,
          failOver (fun l => entry (fun i => holdEntryOk (ent i) == false) 0x000C (span l.hold (l.close + 1))) ls,
          failOver (fun l =>
            entry (fun i => usesRead (ent i) && decide (lcBefore ent l.start i < 4)) 0x000C (span l.start l.hold)) ls]]

/-- Whether some route of a cluster uses a failed link (R33). -/
def usesFailed (failed : List (Nat × Dir)) (c : Nat) (cl : Cluster) : Bool :=
  [false, true].any (fun b => (List.range 1024).any (fun i => routeFailed failed c (routeEntry cl b i)))

/-! ## The sentinel's scratch range (R108, R179) -/

/-- Whether a range of local bytes meets the scratch range. -/
def meetsScratch (cl : Cluster) (a n : Nat) : Bool :=
  sentScratch cl != 0 && decide (a < sentScratch cl + 8192) && decide (sentScratch cl < a + n)

/-- Whether an entry's local accesses meet the scratch range. -/
def routeScratch (cl : Cluster) (e : Nat) : Bool :=
  let n := if bit e 1 then 32 * (bits e 9 2 + 1) else 32
  (usesRead e && meetsScratch cl (readAddr e 0) n) ||
    (srcLocal e != 0 && waddr e != 0x7FFF && meetsScratch cl (writeAddr e 0) n)

/-- Whether the accesses that a cluster's descriptors, vector programs and routes name by address meet the scratch
range; an access through an address register is checked along the paths (log entry 15). -/
def touchesScratch (cl : Cluster) : Bool :=
  let ws := regionWords cl (region cl 0x0C 1) 8
  (mopWords cl).any (fun x =>
    let m := mopAt cl x
    (aRanges m ++ bRanges m ++ dRanges m ++ auxRanges m).any (fun r => m.count != 0 && meetsScratch cl r.1 r.2)) ||
  ws.zipIdx.any (fun e => (vecAccesses ws e.2 e.1).any (fun a => meetsScratch cl a.1.toNat a.2)) ||
  [false, true].any (fun b => (List.range 1024).any (fun i => routeScratch cl (routeEntry cl b i)))

/-- The checks on SENT_SCRATCH: an 8 KiB range of P-mem where the program has a sentinel weir, zero elsewhere. -/
def scratchVerdict (p : Place) (cl : Cluster) (sentinel : Bool) : Verdict :=
  let a := sentScratch cl
  firstFail
    [failWord p 1 0x20 (if sentinel then a % 8192 != 0 || decide (a < pBase) || decide (dataSize < a + 8192) else a != 0) 0x000A,
     failAt p (touchesScratch cl) 0x000D]

/-- Whether an S0 program has a sentinel weir. -/
def hasSentinel (cl : Cluster) : Bool :=
  (regionWords cl (region cl (regionOff .s0) 1) 4).any (fun w => sop w == 0x1B && bit w 8)

/-! ## One cluster -/

/-- Every check on what cluster `c` holds, gang rules apart; `lead` holds the S0 program that it issues (R132). -/
def clusterVerdict (weirs : List WeirEntry) (runBlock : Nat) (p : Place) (c : Nat) (lead cl : Cluster) : Verdict :=
  firstFail
    [failOver (fun o => failWord p 1 o true 0x0006) (dirReserved cl),
     failAt p (dirLayoutOk cl == false) 0x000A,
     descVerdict p cl,
     scalarVerdict p lead cl weirs .s0,
     scalarVerdict p cl cl weirs .s1,
     vectorVerdict p cl,
     templateVerdict p cl weirs runBlock,
     bankVerdict p c cl false,
     bankVerdict p c cl true,
     scratchVerdict p cl (hasSentinel lead)]

end Sys2Proof.Machine
end

