-- ==== Sys2Proof/Machine/Words.lean ====
section
/-! DEFINITION. The instruction that a word of a station or vector program spells: opcode, format and fields (R112, R113,
R116 to R118, R121, R126 to R129). -/

namespace Sys2Proof.Machine

/-- The field of `n` bits of a word from bit `lo` up. -/
def fld (n w lo : Nat) : BitVec n := BitVec.ofNat n (w / 2 ^ lo)

/-- The command of a scalar word that holds no reserved value, by its opcode (R113). -/
def scalarSpelled (c : Nat) (k : Sc) (w : Nat) : Option Instr :=
  match sop w with
  | 0x01 => some (.alu c k (fld 5 w 21) (fld 5 w 16) (fld 5 w 11) (fld 11 w 0))
  | 0x02 => some (.addi c k (fld 5 w 21) (fld 5 w 16) (fld 16 w 0))
  | 0x03 => some (.andi c k (fld 5 w 21) (fld 5 w 16) (fld 16 w 0))
  | 0x04 => some (.ori c k (fld 5 w 21) (fld 5 w 16) (fld 16 w 0))
  | 0x05 => some (.xori c k (fld 5 w 21) (fld 5 w 16) (fld 16 w 0))
  | 0x06 => some (.shi c k (fld 5 w 21) (fld 5 w 16) (fld 16 w 0))
  | 0x07 => some (.movk c k (fld 5 w 21) (fld 2 w 19) (fld 16 w 0))
  | 0x08 => some (.beq c k (fld 5 w 21) (fld 5 w 16) (fld 16 w 0))
  | 0x09 => some (.bne c k (fld 5 w 21) (fld 5 w 16) (fld 16 w 0))
  | 0x0A => some (.blt c k (fld 5 w 21) (fld 5 w 16) (fld 16 w 0))
  | 0x0B => some (.bge c k (fld 5 w 21) (fld 5 w 16) (fld 16 w 0))
  | 0x0C => some (.bltu c k (fld 5 w 21) (fld 5 w 16) (fld 16 w 0))
  | 0x0D => some (.bgeu c k (fld 5 w 21) (fld 5 w 16) (fld 16 w 0))
  | 0x0E => some (.jmp c k (fld 26 w 0))
  | 0x0F => some (.call c k (fld 26 w 0))
  | 0x10 => some (.ret c k)
  | 0x11 => some (.loop c k (fld 5 w 21) (fld 10 w 11))
  | 0x12 => some (.wait c k (fld 20 w 0))
  | 0x13 => some (.waitr c k (fld 5 w 21))
  | 0x18 => some (.mop c (fld 4 w 22) (fld 11 w 11) (bit w 10) (fld 3 w 7))
  | 0x19 => some (.vstart c (fld 3 w 23) (fld 13 w 10))
  | 0x1A => some (.s1start c (fld 14 w 12))
  | 0x1B => some (.weir c (fld 16 w 10) (bit w 9) (bit w 8))
  | 0x1C => some (.stop c)
  | 0x20 => some (.lda c (fld 5 w 21) (bit w 20) (fld 5 w 15) (bit w 14) (bit w 13) (fld 13 w 0))
  | 0x21 => some (.stn c (fld 5 w 21) (bit w 20) (fld 5 w 15) (fld 13 w 0))
  | 0x22 => some (.aop c (fld 3 w 23) (fld 3 w 20) (fld 3 w 17) (fld 16 w 0))
  | 0x23 => some (.mova c (fld 3 w 23) (fld 5 w 18))
  | 0x24 => some (.tload c (fld 3 w 23) (bit w 22) (bit w 21) (fld 5 w 16))
  | 0x25 => some (.gload c (fld 3 w 23) (bit w 21) (fld 5 w 16))
  | 0x26 => some (.s1End c)
  | _ => none

/-- The instruction of core `k` of cluster `c` that a 32-bit word spells; none for a reserved encoding, and for an opcode
that the core does not execute (R111, R112, R113). -/
def scalarInstr (c : Nat) (k : Sc) (w : Nat) : Option Instr := if scalarOk k w then scalarSpelled c k w else none

/-- The address field X of a vector word (R129). -/
def addrOf (w : Nat) : VAddr := { addr := fld 20 w 13, width := fld 3 w 10, step := fld 10 w 0 }

/-- The command of a vector word that holds no reserved value, by its opcode (R127). -/
def vectorSpelled (c v w : Nat) : Option Instr :=
  let vd : BitVec 5 := fld 5 w 51
  let va : BitVec 5 := fld 5 w 46
  let vb : BitVec 5 := fld 5 w 41
  let vc : BitVec 5 := fld 5 w 36
  let m : BitVec 3 := fld 3 w 33
  let fn : BitVec 8 := fld 8 w 25
  match vop w with
  | 0x01 => some (.fadd c v vd va vb m)
  | 0x02 => some (.fsub c v vd va vb m)
  | 0x03 => some (.fmul c v vd va vb m)
  | 0x04 => some (.fma c v vd va vb vc m)
  | 0x05 => some (.fms c v vd va vb vc m)
  | 0x06 => some (.fnma c v vd va vb vc m)
  | 0x07 => some (.fnms c v vd va vb vc m)
  | 0x08 => some (.fmin c v vd va vb m)
  | 0x09 => some (.fmax c v vd va vb m)
  | 0x0A => some (.fabs c v vd va m)
  | 0x0B => some (.fneg c v vd va m)
  | 0x0C => some (.fcmp c v vd va vb m fn)
  | 0x0D => some (.sel c v vd va vb vc m)
  | 0x10 => some (.iadd c v vd va vb m)
  | 0x11 => some (.isub c v vd va vb m)
  | 0x12 => some (.iand c v vd va vb m)
  | 0x13 => some (.ior c v vd va vb m)
  | 0x14 => some (.ixor c v vd va vb m)
  | 0x15 => some (.ishl c v vd va vb m)
  | 0x16 => some (.ishr c v vd va vb m)
  | 0x17 => some (.isar c v vd va vb m)
  | 0x18 => some (.icmp c v vd va vb m fn)
  | 0x19 => some (.wadd c v vd va vb m)
  | 0x1A => some (.wsub c v vd va vb m)
  | 0x20 => some (.bcast c v vd va m fn)
  | 0x21 => some (.perm c v vd va m fn)
  | 0x22 => some (.unpk c v vd va m fn)
  | 0x28 => some (.rsum c v vd va m)
  | 0x29 => some (.rmin c v vd va m)
  | 0x2A => some (.rmax c v vd va m)
  | 0x30 => some (.teval c v vd va m fn)
  | 0x31 => some (.tgrad c v vd va vb m fn)
  | 0x38 => some (.cvt c v vd va m (fld 4 w 29) (fld 4 w 25) (fld 2 w 23))
  | 0x39 => some (.cvtmx c v vd va vc m (fld 4 w 25) (fld 2 w 23))
  | 0x3A => some (.cvtxf c v vd va vb m (fld 4 w 29))
  | 0x3B => some (.cvtg c v vd va vb m)
  | 0x3C => some (.cvts c v vd va m)
  | 0x3D => some (.cvtsf c v vd va m)
  | 0x40 => some (.scnt c v vd va vb vc (fld 5 w 28) m)
  | 0x48 => some (.dbegin c v va)
  | 0x49 => some (.dfold c v va)
  | 0x4A => some (.dfoldt c v va (fld 4 w 0))
  | 0x4B => some (.dend c v)
  | 0x4C => some (.dread c v (addrOf w))
  | 0x4D => some (.dclr c v)
  | 0x50 => some (.gst c v (addrOf w))
  | 0x51 => some (.gdraw c v vd m (bit w 0))
  | 0x52 => some (.gdrawi c v vd va m)
  | 0x58 => some (.ld c v vd m (addrOf w))
  | 0x59 => some (.st c v va (addrOf w))
  | 0x5A => some (.pop c v vd m (bit w 0))
  | 0x5B => some (.push c v va)
  | 0x5C => some (.li c v vd m (fld 32 w 0))
  | 0x60 => some (.rep c v (fld 4 w 16) (fld 16 w 0))
  | 0x61 => some (.vectorEnd c v)
  | _ => none

/-- The instruction of vector core `v` of cluster `c` that a 64-bit word spells; none for a reserved encoding (R111, R126,
R127). -/
def vectorInstr (c v w : Nat) : Option Instr := if vecOk w then vectorSpelled c v w else none

end Sys2Proof.Machine
end

