-- ==== Sys2Proof/Machine/Paths.lean ====
section
/-! DEFINITION. What a cluster's programs do in a segment, found without the data they work on: the issue lc of every
instruction depends on general registers alone, and no load writes one (R79, R80, R81, R82). The registers are followed by
the meanings of the instructions themselves; `x` stands for whatever word S1 loads (log entries 15, 93). -/

namespace Sys2Proof.Machine

/-! ## A path through a segment -/

/-- An access to the local memories: its lc counted from the resume, address, bytes, and whether it is a raw narrow
read. -/
structure Touch where
  at_ : Nat
  addr : Nat
  size : Nat
  raw : Bool
deriving DecidableEq, Repr

/-- What is known of an address register from an lc of a segment on: the loaded words up to `top` give it every value that
any loaded word gives it, and whether it holds the loaded word itself. -/
structure LoadSpan where
  reg : Nat
  at_ : Nat
  top : Nat
  same : Bool
deriving DecidableEq, Repr

/-- The span of an address register in an lc; at first none depends on a loaded word. -/
def spanAt (ss : List LoadSpan) (t r : Nat) : LoadSpan :=
  ss.foldr (fun e b => if e.reg = r ∧ e.at_ ≤ t ∧ b.at_ ≤ e.at_ then e else b) { reg := r, at_ := 0, top := 0, same := false }

/-- The span that an AOP makes of its source's, with the general register that it may read (R116): a mask and a minimum
leave no more values than their bound. -/
def aopSpan (fn imm g : Nat) (s : LoadSpan) : Nat × Bool :=
  match fn with
  | 0 => (s.top, s.same && imm == 0)
  | 2 => (if s.same then 2 ^ (32 - imm % 32) - 1 else s.top, s.same && imm % 32 == 0)
  | 3 => (if s.same then min s.top imm else s.top, false)
  | 4 => (if s.same then min s.top g else s.top, false)
  | _ => (s.top, false)

/-- A cluster on its way through a segment: its registers and its leader's, the lc reached, the accesses so far, the first
lc in which R119 lets S0 issue WEIR for all that has been started, rows sent to the matrix-to-vector queue and rows taken,
the lc of the WEIR, and the check code of a path that cannot go on. `need` is the last loaded word that must be followed to
see every address. -/
structure Walk where
  own : Cluster
  lead : Cluster
  now : Nat
  touches : List Touch
  clear : Nat
  rows : Nat
  pops : Nat
  weirAt : Option Nat
  bad : Option Nat
  spans : List LoadSpan
  need : Nat
deriving DecidableEq, Repr

/-- The results of a cluster's scalar cores that land after lc `from_` up to lc `till`: none takes more than five lc (R79,
R115). -/
def landUpTo (c from_ till : Nat) (cl : Cluster) : Cluster :=
  (List.range (min 6 (till - from_))).foldl (fun cl i =>
    let t := from_ + 1 + i
    ((dueLate false t cl).foldl (fun w e => applyLate c t [] e w)
      { cl := { cl with late := cl.late.filter (fun e => decide (t < e.1)) }, bad := [] }).cl) cl

/-- Register effects of an instruction by itself: a scalar instruction that both cores share, AOP or MOVA. -/
def registerAct (i : Instr) : Option (Option Dst × Act) :=
  match i with
  | .alu _ k rd a b fn => some (gDst rd (aluLat fn), aluAct k rd a b fn)
  | .addi _ k rd a imm => some (gDst rd 1, opAct k rd (addiFn a imm))
  | .andi _ k rd a imm => some (gDst rd 1, opAct k rd (andiFn a imm))
  | .ori _ k rd a imm => some (gDst rd 1, opAct k rd (oriFn a imm))
  | .xori _ k rd a imm => some (gDst rd 1, opAct k rd (xoriFn a imm))
  | .shi _ k rd a imm => some (gDst rd 1, shiAct k rd a imm)
  | .movk _ k rd q imm => some (gDst rd 1, opAct k rd (movkFn rd q imm))
  | .beq _ k a b off => some (none, branchAct k a b off (fun x y => x == y))
  | .bne _ k a b off => some (none, branchAct k a b off (fun x y => x != y))
  | .blt _ k a b off => some (none, branchAct k a b off (fun x y => x.slt y))
  | .bge _ k a b off => some (none, branchAct k a b off (fun x y => y.sle x))
  | .bltu _ k a b off => some (none, branchAct k a b off (fun x y => x.ult y))
  | .bgeu _ k a b off => some (none, branchAct k a b off (fun x y => y.ule x))
  | .jmp _ k off => some (none, jmpAct k off)
  | .call _ k off => some (none, callAct k off)
  | .ret _ k => some (none, retAct k)
  | .loop _ k rs len => some (none, loopAct k rs len)
  | .wait _ k imm => some (none, waitAct k imm)
  | .waitr _ k rs => some (none, waitrAct k rs)
  | .aop _ ad as_ fn imm => some (aDst ad.toNat (aopLat fn.toNat), aopAct ad as_ fn imm)
  | .mova _ ad rs => some (aDst ad.toNat 1, movaAct ad rs)
  | _ => none

/-- One instruction's register effects, in the cluster and, for a gang member's S0, in its leader; a fault ends the path
with 0x000A (R111, R114). -/
def Walk.act (c leader : Nat) (k : Sc) (d : Option Dst) (f : Act) (w : Walk) : Walk :=
  let one (n : Nat) (ld cl : Cluster) : Work := resultOf n k d f ld w.now { cl := beginIssue k w.now cl, bad := [] }
  let r := one c (if k = .s0 then w.lead else w.own) w.own
  { w with
    own := r.cl,
    lead := if leader = c then r.cl else if k = .s0 then (one leader w.lead w.lead).cl else w.lead,
    bad := if r.bad.isEmpty then w.bad else some 0x000A }

/-- S0 goes on behind an instruction whose effect is not in its registers. -/
def Walk.pass (c leader : Nat) (k : Sc) (w : Walk) : Walk := w.act c leader k none (fun _ _ _ v => v.on (stepPc k))

/-- An access in the issue lc. -/
def Walk.touch (a n : Nat) (raw : Bool) (w : Walk) : Walk :=
  { w with touches := { at_ := w.now, addr := a, size := n, raw := raw } :: w.touches }

/-- An address is formed from an address register, if it is (R115, R117, R122). -/
def Walk.base (a : Bool) (r : Nat) (w : Walk) : Walk :=
  if a then { w with need := max w.need (spanAt w.spans w.now r).top } else w

/-- An access of S1 with a base in a general register is known here: one that R87 or R88 does not allow is a reserved encoding;
one through an address register is checked at run time (R87, R111, R115). -/
def Walk.s1Ok (a ok : Bool) (w : Walk) : Walk := if a || ok || w.bad.isSome then w else { w with bad := some 0x0006 }

/-- An address register has a new span from some lc on. -/
def Walk.spread (r t top : Nat) (same : Bool) (w : Walk) : Walk :=
  { w with spans := { reg := r, at_ := t, top := top, same := same } :: w.spans }

/-- The spans as an instruction that writes an address register by itself leaves them. -/
def Walk.spreadBy (c : Nat) (i : Instr) (w : Walk) : Walk :=
  match i with
  | .aop _ ad as_ fn imm =>
    let g := ((rg c .s1 { cl := w.own, bad := [] } (imm.setWidth 5)).setWidth 32).toNat
    let s := aopSpan fn.toNat imm.toNat g (spanAt w.spans w.now as_.toNat)
    w.spread ad.toNat (w.now + aopLat fn.toNat) s.1 s.2
  | .mova _ ad _ => w.spread ad.toNat (w.now + 1) 0 false
  | _ => w

/-- Work is in progress up to an lc. -/
def Walk.until_ (t : Nat) (w : Walk) : Walk := { w with clear := max w.clear t }

/-! ## Macro-operations and vector programs -/

/-- The first lc in which a macro-operation has ended its occupancy and its last write has committed (R38 to R41, R94,
R119). -/
def mopEnd (core : Nat) (m : Macro) : Nat :=
  let last := m.issue + switchLc core m + m.count
  if m.count = 0 then m.issue
  else max (m.issue + occupancy core m) (if m.mopc = 1 then last + 6 else if m.mopc = 3 then last + 4 else 0)

/-- MOP: the accesses of a macro-operation, and how long it lasts. -/
def Walk.mop (core idx : Nat) (sub : Option Nat) (w : Walk) : Walk :=
  let m := { mopAt w.own (leNat (Mem.read 0 w.own.smem (dirWord w.own 0x10 + 16 * idx) 16)) with issue := w.now }
  let m := { m with bAddr := sub.getD m.bAddr }
  if m.count = 0 then w
  else
    let w := (aRanges m ++ bRanges m ++ auxRanges m ++ dRanges m).foldl (fun w r => w.touch r.1 r.2 false) w
    { w.until_ (mopEnd core m) with rows := w.rows + (if m.mopc = 1 ∧ m.toQueue = true then m.count else 0) }

/-- A vector core in its program: where it issues, in which lc, and the REP in progress (R62). -/
structure VecPlace where
  pc : Nat
  at_ : Nat
  left : Nat
  start : Nat
  stop : Nat
  iter : Nat
deriving DecidableEq, Repr

/-- Where a vector core goes on after a word. -/
def VecPlace.next (w : Nat) (p : VecPlace) : VecPlace :=
  let q := { p with pc := p.pc + 8, at_ := p.at_ + 1 }
  if vop w = 0x60 then
    let stop := p.pc + 8 + 8 * (bits w 19 16 + 1)
    if bits w 15 0 = 0 then { q with pc := stop } else { q with left := bits w 15 0, start := p.pc + 8, stop := stop, iter := 0 }
  else if p.left = 0 ∨ q.pc ≠ p.stop then q
  else if p.left = 1 then { q with left := 0, iter := 0 }
  else { q with pc := p.start, left := p.left - 1, iter := p.iter + 1 }

/-- One word of a vector program: its access, its store's commit, a row that it takes (R94, R117). -/
def Walk.vecWord (p : VecPlace) (x : Nat) (w : Walk) : Walk :=
  let w := match vecAccess x p.iter with
    | some a => { w with touches := { at_ := p.at_, addr := a.1.toNat, size := a.2, raw := false } :: w.touches }
    | none => w
  let w := if vop x = 0x59 ∨ vop x = 0x4C then w.until_ (p.at_ + 3) else w
  if vop x = 0x5A then { w with pops := w.pops + 1 } else w

/-- A vector program from a place to its END; one that leaves its region ends the path (R110). -/
def Walk.vector : Nat → VecPlace → Walk → Walk
  | 0, _, w => { w with bad := some 0x000A }
  | fuel + 1, p, w =>
    if inRegion w.own 0x0C p.pc = false then { w with bad := some 0x000A }
    else
      let x := leNat (Mem.read 0 w.own.smem p.pc 8)
      if vop x = 0x61 then w.until_ p.at_ else Walk.vector fuel (p.next x) (w.vecWord p x)

/-- More steps than any program takes within the longest deadline (R157). -/
def pathFuel : Nat := 2 ^ 48

/-! ## The other instructions -/

/-- Whether the descriptor of a table image that the manifest places at an address is good (R67). -/
def tableGood (p : Place) (cl : Cluster) (a : Nat) : Bool :=
  p.byteAt 0 (a + 4096) == p.off || tabOk (leNat (Mem.read 0 cl.mem (a + 4096) 16))

/-- S1 at a start (R117); one that has not reached END ends the path. -/
def Walk.startS1 (same : Bool) (pc : Nat) (w : Walk) : Walk :=
  if w.own.s1.runs then { w with bad := some 0x000A }
  else
    let on (cl : Cluster) : Cluster :=
      { cl with s1 := { cl.s1 with st := .issuing, pc := pc, ready := w.now + 2, loops := [], rets := [] } }
    { w with own := on w.own, lead := if same then on w.lead else w.lead }

/-- S0 at a WEIR (R118). -/
def Walk.arrive (n : Nat) (rly sent : Bool) (w : Walk) : Walk :=
  let pc := w.own.s0.pc
  let back := if rly then targetOf (pc + 4) (sext 26 (bits (smemWord w.lead (pc + 4)) 25 0)) else pc + 4
  { w with own := arriveWeir n rly sent back w.own, lead := arriveWeir n rly sent back w.lead, weirAt := some w.now }

/-- An instruction of a core of cluster `c`, in the lc that the walk has reached. -/
def Walk.does (c leader x : Nat) (p : Place) (k : Sc) (i : Instr) (w : Walk) : Walk :=
  let on (v : Walk) : Walk := v.pass c leader k
  let own : Work := { cl := w.own, bad := [] }
  match registerAct i with
  | some (d, f) => (w.spreadBy c i).act c leader k d f
  | none =>
    match i with
    | .mop _ core idx sub areg =>
      on ((w.base sub areg.toNat).mop core.toNat idx.toNat (if sub then some (readA areg.toNat w.own).toNat else none))
    | .vstart _ _ vaddr =>
      on (w.vector pathFuel { pc := 8 * vaddr.toNat, at_ := w.now + 2, left := 0, start := 0, stop := 0, iter := 0 })
    | .s1start _ saddr => (on w).startS1 (leader == c) (4 * saddr.toNat)
    | .weir _ n rly sent => w.arrive n.toNat rly sent
    | .lda _ rd a rb raw _ off =>
      let b := s1Addr c a rb off own
      (((((w.base a rb.toNat).s1Ok a (okAccess b 8)).touch b 8 raw).until_ (w.now + 5)).spread rd.toNat (w.now + 5)
        (2 ^ 32 - 1) true).act c leader k (aDst rd.toNat 5)
        (fun _ _ now v => v.on (fun cl => later (now + 5) (.a rd.toNat (BitVec.ofNat 32 x) true) (stepPc .s1 cl)))
    | .stn _ _ a rb off =>
      let b := s1Addr c a rb off own
      on ((((w.base a rb.toNat).s1Ok a (okAccess b 8)).touch b 8 false).until_ (w.now + 2))
    | .tload _ _ _ a rb =>
      let b := s1Base c a rb own
      let w := (w.base a rb.toNat).s1Ok a ((List.range 9).all (fun j => okAccess (b + 512 * j) 512))
      let w := (List.range 9).foldl (fun w j => w.touch (b + 512 * j) 512 false) (w.until_ (w.now + 34))
      on (if tableGood p w.own b then w else { w with bad := some 0x0010 })
    | .gload _ _ a rb =>
      let b := s1Base c a rb own
      on ((((w.base a rb.toNat).s1Ok a (okAccess b 32 && decide (b < pBase))).touch b 32 false).until_ (w.now + 2))
    | .s1End _ =>
      let stop (cl : Cluster) : Cluster := { cl with s1 := { cl.s1 with st := .stopped } }
      { w.until_ w.now with own := stop w.own, lead := if leader = c then stop w.lead else w.lead }
    | _ => { w with bad := some 0x000A }

/-! ## The walk -/

/-- The core that issues next: the one that can issue first, S1 before S0 in one lc; none when S0 stands at its weir and S1
has ended. -/
def Walk.turn (w : Walk) : Option Sc :=
  if w.own.s1.runs && (!w.own.s0.runs || decide (w.own.s1.ready ≤ w.own.s0.ready)) then some .s1
  else if w.own.s0.runs then some .s0
  else none

/-- The next instruction of cluster `c`: its results so far land, and the word at the program counter is done; a fetch
outside the region ends the path (R110). -/
def Walk.step (c leader x : Nat) (p : Place) (k : Sc) (w : Walk) : Walk :=
  let t := (scalarCore k w.own).ready
  let own := landUpTo c w.now t w.own
  let w := { w with own := own, lead := if leader = c then own else landUpTo leader w.now t w.lead, now := t }
  let from_ := if k = .s0 then w.lead else w.own
  let pc := (scalarCore k w.own).pc
  if inRegion from_ (regionOff k) pc = false then { w with bad := some 0x000D }
  else
    match scalarInstr c k (smemWord from_ pc) with
    | some i => w.does c leader x p k i
    | none => { w with bad := some 0x0006 }

/-- The walk to the weir; a program that never comes to one breaks R158. -/
def Walk.run (c leader x : Nat) (p : Place) : Nat → Walk → Walk
  | 0, w => { w with bad := some 0x000D }
  | fuel + 1, w =>
    if w.bad.isSome then w
    else
      match w.turn with
      | some k => Walk.run c leader x p fuel (w.step c leader x p k)
      | none => w

/-- A cluster's walk through a segment, from the cluster as it resumes in lc 0: after its sentinel routine, if it stands
at a sentinel weir (R119). -/
def walkOf (c leader x : Nat) (p : Place) (own lead : Cluster) (spans : List LoadSpan) : Walk :=
  let go (cl : Cluster) : Cluster := { cl with s0 := { cl.s0 with st := .issuing } }
  Walk.run c leader x p pathFuel
    { own := go own, lead := go lead, now := 0, touches := [], clear := 0, rows := 0, pops := 0, weirAt := none, bad := none,
      spans := spans, need := 0 }

/-- The checks on a walk: it comes to the next weir of the table (R158) in an lc in which R119 lets it arrive. -/
def walkVerdict (p : Place) (next : Nat) (w : Walk) : Verdict :=
  match w.bad, w.weirAt with
  | some code, _ => failAt p true code
  | none, none => failAt p true 0x000D
  | none, some t =>
    firstFail
      [failAt p (w.own.weirNum != next) 0x000D, failAt p (decide (t < w.clear) || w.rows != w.pops) 0x000A]

/-- The spans that a walk leaves for the next segment. -/
def Walk.settled (w : Walk) : List LoadSpan :=
  ((List.range 8).map (fun r => { spanAt w.spans (w.now + 6) r with at_ := 0 })).filter (fun s => s.top != 0)

/-- The cluster as a walk leaves it at its weir, its last results landed. -/
def Walk.ended (c : Nat) (w : Walk) : Cluster := { landUpTo c w.now (w.now + 6) w.own with late := [] }

end Sys2Proof.Machine
end

