-- ==== Sys2Proof/Machine/Flows.lean ====
section
/-! DEFINITION. What the slot lists of routers and gates do in a segment and in the hold behind it, when every scheduled
row is present (R143 to R145, R148 to R151, R189): the entry of any lc, the landing deliveries that an injection reaches,
and the scoreboard of a cluster lc by lc (log entry 67). -/

namespace Sys2Proof.Machine

/-! ## Slot lists as timetables -/

/-- A slot list in use: the entries of its bank and where the list starts. -/
structure Slots where
  ent : Nat → Nat
  start : Nat

/-- Lc that the entries from one index up to another take. -/
def entriesLc (ent : Nat → Nat) (a b : Nat) : Nat := (span a b).foldl (fun n i => n + bits (ent i) 9 2 + 1) 0

/-- Lc of the segment run. -/
def Slots.segLc (s : Slots) : Nat := entriesLc s.ent s.start (findEnd s.ent 1024 s.start + 1)

/-- First entry of the hold run. -/
def Slots.hold (s : Slots) : Nat := findEnd s.ent 1024 s.start + 1

/-- Lc of one repetition of the hold run. -/
def Slots.holdLc (s : Slots) : Nat := entriesLc s.ent s.hold (findEnd s.ent 1024 s.hold + 1)

/-- The entry, from one on, that applies after some lc, and the lc of it that has been reached. -/
def entryAfter (ent : Nat → Nat) : Nat → Nat → Nat → Nat × Nat
  | 0, i, t => (ent i, t)
  | fuel + 1, i, t => if t ≤ bits (ent i) 9 2 then (ent i, t) else entryAfter ent fuel (i + 1) (t - bits (ent i) 9 2 - 1)

/-- The entry that applies in an lc from the resume on, and the lc of it that has been reached: the segment run, then the
hold run over and over (R145). -/
def Slots.at_ (s : Slots) (t : Nat) : Nat × Nat :=
  if t < s.segLc then entryAfter s.ent 1024 s.start t else entryAfter s.ent 1024 s.hold ((t - s.segLc) % s.holdLc)

/-- The entries of the hold run. -/
def Slots.held (s : Slots) : List Nat := (span s.hold (findEnd s.ent 1024 s.hold + 1)).map s.ent

/-- Whether the list is its bank's last (R143). -/
def Slots.last (s : Slots) : Bool := bit (s.ent (findEnd s.ent 1024 s.hold)) 1

/-- The list that a router or gate starts next (R144). -/
def nextSlots (ent : Bool → Nat → Nat) (first : Bool) (p : SlotPos) : Slots :=
  let act := nextBank first p.bank
  { ent := ent act, start := if act then p.cur1 else p.cur0 }

/-- The list that a router or gate has started. -/
def slotsOf (ent : Bool → Nat → Nat) (p : SlotPos) : Slots := { ent := ent p.bank, start := p.entry }

/-! ## Flits through the routers -/

/-- The entry of cluster `c` in an lc; 0, which selects nothing, where no router steps. -/
abbrev Routes := Nat → Nat → Nat

/-- The landing deliveries, by cluster and lc, that a flit reaches which arrives at an input in an lc (R138, R139). -/
def deliveries (rs : Routes) : Nat → Nat → Dir → Nat → List (Nat × Nat)
  | 0, _, _, _ => []
  | fuel + 1, c, d, t =>
    let e := rs c t
    (if srcLocal e = dirNum d + 1 ∧ waddr e = 0x7FFF then [(c, t)] else []) ++
      (dirs.filter (fun o => srcOut e (dirNum o) == dirNum d + 1)).flatMap (fun o =>
        match outLink c o with
        | some (n, lat) => deliveries rs fuel n (opp o) (t + lat)
        | none => [])

/-- More hops than a flit makes before its segment's routes have consumed it. -/
def hopFuel : Nat := 65536

/-- The entry of a gate in an lc; 0, which does nothing, in a bank without entries (R189). -/
def gateSlot (g : Gate) (t : Nat) : Nat := if gateActive g then ((slotsOf (gateEntry g) g.pos).at_ t).1 else 0

/-- The entries of a router's hold run; none where it steps no list. -/
abbrev HoldRuns := Nat → List Nat

/-- Whether a gate keeps the first two rules of R148 in a slot: it injects only where the router behind it sends nothing,
and the router before it does not select what it extracts. What could take a slot in the first lc of a segment left its
router in the hold before, at any entry of the hold run. -/
def gateSlotOk (before : HoldRuns) (rs : Routes) (g : Gate) (t : Nat) : Bool :=
  let e := gateSlot g t
  let lag := gateDelay g.id
  let faces (north : Bool) : Nat × Nat := if north then (gateSouth g.id, gateNorth g.id) else (gateNorth g.id, gateSouth g.id)
  if gateAct e = 1 ∨ gateAct e = 2 then
    let behind := (faces (!gateFace e)).1
    (if t < lag then before behind else [rs behind (t - lag)]).all (fun r => srcOut r (if gateFace e then 2 else 0) == 0)
  else if gateAct e = 3 then
    let north := extractsNorthward g.id (gateFace e)
    selectsInput (rs (faces north).2 (t + lag)) (if north then 3 else 1) == false
  else true

/-- Whether what a gate extracts in the last lc of a hold, in the slots of some of its entries, is selected in the first lc of
the next segment by the router that would have received it (R148). -/
def gateEdgeOk (held : List Nat) (rs : Routes) (g : Gate) (t : Nat) : Bool :=
  held.all (fun e =>
    let north := extractsNorthward g.id (gateFace e)
    gateAct e != 3 || decide (gateDelay g.id ≤ t) ||
      selectsInput (rs (if north then gateNorth g.id else gateSouth g.id) t) (if north then 3 else 1) == false)

/-! ## Objects and their rows -/

/-- An object that gates inject as landing flits: site kind, site, number. -/
abbrev ObjKey := Bool × Nat × Nat

/-- The object of an injecting entry (R221, R257). -/
def gateKey (g : Gate) (e : Nat) : ObjKey :=
  (g.id.stackGate, g.id.site, if g.id.stackGate then bits (gateObj e) 15 0 else bits (gateObj e) 14 0)

/-- The landing rows of an object in the order in which its gates inject them: memory and row (R102, R148). -/
abbrev Feeds := List (ObjKey × List (Bool × Nat))

/-- The rows of tiles laid one after another. -/
def tileLands (amem : Bool) (first step count rows : Nat) : List (Bool × Nat) :=
  (List.range count).flatMap (fun i => (List.range rows).map (fun r => (amem, first + i * step + r)))

/-- The landing rows of an object. -/
def feedRows (fs : Feeds) (k : ObjKey) : List (Bool × Nat) := ((fs.find? (fun f => f.1 == k)).map Prod.snd).getD []

/-- A part of a row that reaches a cluster's landing queue: cluster, lc, row, part, object. -/
structure Arrival where
  c : Nat
  at_ : Nat
  amem : Bool
  row : Nat
  part : Nat
  key : ObjKey
deriving DecidableEq, Repr

/-- How many parts of each object the gates have injected. -/
abbrev Fed := List (ObjKey × Nat)

/-- The parts of an object injected so far. -/
def fedOf (f : Fed) (k : ObjKey) : Nat := ((f.find? (fun e => e.1 == k)).map Prod.snd).getD 0

/-- One injection of landing flits in lc `t`: the object's next part, and where it lands. -/
def injectPart (rs : Routes) (feeds : Feeds) (t : Nat) (st : Fed × List Arrival) (g : Gate) : Fed × List Arrival :=
  let e := gateSlot g t
  let k := gateKey g e
  let n := fedOf st.1 k
  match (feedRows feeds k)[n / 16]? with
  | none => st
  | some (amem, row) =>
    if gateAct e ≠ 1 then st
    else
      let dst := if gateFace e then gateSouth g.id else gateNorth g.id
      let inp := if gateFace e then Dir.north else Dir.south
      ((k, n + 1) :: st.1.filter (fun f => f.1 != k),
       st.2 ++ (deliveries rs hopFuel dst inp (t + gateDelay g.id)).map (fun d =>
         { c := d.1, at_ := d.2, amem := amem, row := row, part := n % 16, key := k }))

/-- The injections of some lc, gates in the manifest's order. -/
def injectAll (rs : Routes) (feeds : Feeds) (gates : List Gate) (ts : List Nat) (fed : Fed) : Fed × List Arrival :=
  ts.foldl (fun st t => gates.foldl (injectPart rs feeds t) st) (fed, [])

/-! ## The scoreboard lc by lc -/

/-- Whether bytes from an address meet the rows of an entry (R96, R99). -/
def meetsEntry (e : Score) (a n : Nat) : Bool :=
  let base := if aBase ≤ a then aBase else 0
  decide (a < pBase) && e.amem == decide (aBase ≤ a) && decide (e.first ≤ (a + n - 1 - base) / 512) &&
    decide ((a - base) / 512 < e.first + e.rows)

/-- Whether verification forbids an access while the scoreboard stands as it does (R101, R105): of a gated entry, until
its last landing has committed; of an ungated one, until its release, for a raw read only where it can be armed. -/
def touchForbidden (cl : Cluster) (x : Touch) : Bool :=
  cl.sb.any (fun e =>
    meetsEntry e.2 x.addr x.size &&
      (if e.2.gated then e.2.st == .armed && !x.raw else e.2.st != .idle && (!x.raw || e.2.expect != 0)))

/-- Whether a gated entry is armed. -/
def gatedArmed (cl : Cluster) : Bool := cl.sb.any (fun e => e.2.st == .armed && e.2.gated)

/-- Whether a row lies in a gated entry that is armed. -/
def gatedRow (cl : Cluster) (b : LandBuf) : Bool :=
  cl.sb.any (fun e => e.2.st == .armed && e.2.gated && e.2.amem == b.amem && decide (e.2.first ≤ b.row) &&
    decide (b.row < e.2.first + e.2.rows))

/-- A landing slot (R150, R151): with a gated entry armed it must serve a gated one. -/
def landAt (cl : Cluster) : Cluster × Bool :=
  match firstComplete cl.land with
  | none => (cl, gatedArmed cl)
  | some b =>
    (landCount b.amem b.row { cl with land := cl.land.filter (fun x => x != b) }, gatedArmed cl && !gatedRow cl b)

/-- One lc of a cluster's scoreboard and landing queue: the accesses of the lc, the parts that arrive, a landing slot; with
the check codes that it gives (R101, R105, R149 to R151). -/
def guardLc (c : Nat) (slots : Slots) (touches : List Touch) (arrivals : List Arrival) (st : Cluster × List Nat) (t : Nat) :
    Cluster × List Nat :=
  let bad := if (touches.filter (fun x => x.at_ == t)).any (touchForbidden st.1) then [0x000B] else []
  let w := (arrivals.filter (fun a => a.c == c && a.at_ == t)).foldl
    (fun w a => landPart c 0 0 (landFlit 0 a.amem a.row a.part) w) { cl := st.1, bad := [] }
  let l := if slotLand (slots.at_ t).1 then landAt w.cl else (w.cl, false)
  (l.1, st.2 ++ bad ++ (if w.bad.isEmpty && !l.2 then [] else [0x000C]))

/-- The scheduled accesses of a router's segment run: its local reads, four lc ahead, and its data writes (R101, R138). -/
def routeTouches (slots : Slots) : List Touch :=
  (List.range slots.segLc).flatMap (fun t =>
    let e := slots.at_ t
    (if usesRead e.1 then [{ at_ := t - 4, addr := readAddr e.1 e.2, size := 32, raw := false }] else []) ++
      (if srcLocal e.1 ≠ 0 ∧ waddr e.1 ≠ 0x7FFF then [{ at_ := t, addr := writeAddr e.1 e.2, size := 32, raw := false }] else []))

end Sys2Proof.Machine
end

