-- ==== Sys2Proof/Machine/PathCheck.lean ====
section
/-! DEFINITION. The rules of verification over the paths of a run: the segments between the weirs of the table, main and
relay, with every participant's programs, routers and scoreboard and the gates (R98, R101, R105, R114, R119, R144, R145,
R148, R151, R158, R169, R179, R189; log entries 15, 93). -/

namespace Sys2Proof.Machine

/-- A participant in verification: its cluster number, the leader whose S0 program it issues, where its checks report. -/
structure Site where
  c : Nat
  leader : Nat
  place : Place
deriving DecidableEq, Repr

/-- What a run holds between two segments: the sites' clusters with what is known of their address registers, the gates,
the parts injected, and the last loaded word that must be followed. -/
structure Path where
  cls : List Cluster
  spans : List (List LoadSpan)
  need : Nat
  gates : List Gate
  fed : Fed
deriving DecidableEq, Repr

/-- What verification follows: the sites, where each gate's record stands, the objects' rows, and the word that stands for
whatever S1 loads. -/
structure Plan where
  sites : List Site
  gateAt : List (Nat × Nat)
  feeds : Feeds
  x : Nat
deriving DecidableEq, Repr

/-- A cluster in the lc of its resume (R97, R118, R144). -/
def resumed (e : WeirEntry) (first relay : Bool) (s : Site) (cl : Cluster) : Cluster :=
  (resumeCluster s.c e first relay 0 { cl := cl, bad := [] }).cl

/-- The routes of a segment. -/
def routesOf (sites : List (Site × Cluster)) : Routes := fun c t =>
  match sites.find? (fun s => s.1.c == c) with
  | some s => ((slotsOf (routeEntry s.2) s.2.pos).at_ t).1
  | none => 0

/-- The hold runs that the routers have been stepping when a segment begins; none at the run's first release (R145). -/
def heldBefore (first : Bool) (sites : List (Site × Cluster)) : HoldRuns := fun c =>
  if first then []
  else
    match sites.find? (fun s => s.1.c == c) with
    | some s => (slotsOf (routeEntry s.2) s.2.pos).held
    | none => []

/-- The hold run that a gate has been stepping when a segment begins. -/
def gateHeld (first : Bool) (g : Gate) : List Nat :=
  if first || !gateActive g then [] else (slotsOf (gateEntry g) g.pos).held

/-- Whether in each repetition of a site's hold run its landing slots suffice for the rows whose parts arrive, the parts of a
common period of all hold runs being given (R151). -/
def holdServed (l : Slots) (period : Nat) (parts : List Nat) (slots : Nat) : Bool :=
  (List.range (period / l.holdLc)).all (fun k =>
    decide ((parts.filter (fun t => (t - l.segLc) % period / l.holdLc == k)).length ≤ 16 * slots))

/-- Whether a weir with a relay segment finds two lists before the wrap of the bank that it selects (R144). -/
def twoLists (e : WeirEntry) (s : Slots) : Bool := !e.relay || !s.last

/-- The list structure at a weir: the routers' banks and those gate banks that hold entries (R144, R189). -/
def listsVerdict (pl : Plan) (e : WeirEntry) (first : Bool) (p : Path) : Verdict :=
  firstFail
    [failOver (fun s : Site × Cluster =>
       failAt s.1.place (twoLists e (nextSlots (routeEntry s.2) first s.2.pos) == false) 0x000C) (pl.sites.zip p.cls),
     failOver (fun g : Gate × Nat × Nat =>
       let bank := nextBank first g.1.pos.bank
       failIf ((if bank then g.1.bank1 else g.1.bank0).isEmpty == false &&
         twoLists e (nextSlots (gateEntry g.1) first g.1.pos) == false) 0x000C g.2.1 g.2.2) (p.gates.zip pl.gateAt)]

/-- A site in a segment: the cluster as it resumed, and its walk to the next weir. -/
structure Leg where
  site : Site
  cl : Cluster
  walk : Walk
deriving DecidableEq, Repr

/-- A leg's slot list. -/
def Leg.slots (l : Leg) : Slots := slotsOf (routeEntry l.cl) l.cl.pos

/-- The legs of a segment. -/
def legsOf (pl : Plan) (cls : List Cluster) (spans : List (List LoadSpan)) : List Leg :=
  let all := pl.sites.zip cls
  (all.zip spans).map (fun z =>
    let s := z.1
    let lead := ((all.find? (fun r => r.1.c == s.1.leader)).map Prod.snd).getD s.2
    { site := s.1, cl := s.2, walk := walkOf s.1.c s.1.leader pl.x s.1.place s.2 lead z.2 })

/-- The checks on one leg: the way to the next weir (R114, R119, R158), the end of the segment run before the WEIR (R145),
and no access to the scratch range (R179). -/
def legVerdict (next : Nat) (l : Leg) : Verdict :=
  firstFail
    [walkVerdict l.site.place next l.walk,
     failAt l.site.place (decide (l.walk.weirAt.getD 0 < l.slots.segLc)) 0x000C,
     failAt l.site.place (l.walk.touches.any (fun x => meetsScratch l.cl x.addr x.size)) 0x000D]

/-- The conditions that a relay defers, as objects whose rows they bring in (R162, R169). -/
def deferredKeys (e : WeirEntry) : List ObjKey :=
  e.conds.filterMap (fun c =>
    if c.defer = false then none
    else if c.kind = 1 then some (false, c.obj / 32768, c.obj % 32768)
    else if c.kind = 3 then some (true, c.obj / 65536, c.obj % 65536)
    else none)

/-- Whether the row of a part that lands in a cluster lies in an ungated entry that the next weir frees (R169). -/
def deferredGuarded (next : Nat) (cl : Cluster) (a : Arrival) : Bool :=
  cl.sb.any (fun e => e.2.st != .idle && !e.2.gated && e.2.rel == next && e.2.amem == a.amem &&
    decide (e.2.first ≤ a.row) && decide (a.row < e.2.first + e.2.rows))

/-- Landing slots of a site in some lc. -/
def landSlots (s : Slots) (ts : List Nat) : Nat := (ts.filter (fun t => slotLand (s.at_ t).1)).length

/-- Whether gates inject landing flits in the hold runs of their lists. -/
def holdInjects (gates : List Gate) : Bool :=
  gates.any (fun g => gateActive g &&
    (let s := slotsOf (gateEntry g) g.pos
     (span s.hold (findEnd s.ent 1024 s.hold + 1)).any (fun i => gateAct (s.ent i) == 1)))

/-- The timetable of a segment: the lc by which every segment run and every WEIR has passed, and the lc after which all
hold runs repeat together. -/
def timetable (legs : List Leg) (gates : List Gate) : Nat × Nat :=
  let gs := (gates.filter gateActive).map (fun g => slotsOf (gateEntry g) g.pos)
  let ss := legs.map Leg.slots ++ gs
  (max ((ss.map Slots.segLc).foldl max 0) ((legs.map (fun l => l.walk.weirAt.getD 0 + 1)).foldl max 0),
   (ss.map Slots.holdLc).foldl Nat.lcm 1)

/-- The cluster as a segment and its hold leave it at the release of the next weir: the entries that it frees are idle, no
row is on the way (R97, R100, R145). -/
def Leg.close (next : Nat) (l : Leg) (guarded : Cluster) : Cluster :=
  { l.walk.ended l.site.c with
    land := [], sb := Tab.mapVals Score.reset (fun _ e => if e.rel = next then { e with st := .idle } else e) guarded.sb }

/-- One segment, from the release of weir `e` to that of the next weir of the table: what fails, and the run behind it.
A hold delivers every row that is left of the objects its gates inject. -/
def segment (pl : Plan) (e next : WeirEntry) (first relay : Bool) (p : Path) : Verdict × Path :=
  let cls := (pl.sites.zip p.cls).map (fun s => resumed e first relay s.1 s.2)
  let gates := p.gates.map (resumeGate e first relay 0)
  let rs := routesOf (pl.sites.zip cls)
  let before := heldBefore first (pl.sites.zip p.cls)
  let legs := legsOf pl cls p.spans
  let tt := timetable legs gates
  let all := tt.1 + tt.2
  let turns := if holdInjects gates then ((pl.feeds.map (fun f => 16 * f.2.length)).foldl (· + ·) 0) + 1 else 1
  let inj := injectAll rs pl.feeds gates (List.range (tt.1 + tt.2 * turns)) p.fed
  let hold := (injectAll rs (pl.feeds.map (fun f => (f.1, (List.replicate (tt.2 + 1) f.2).flatten))) gates
    ((List.range tt.2).map (· + tt.1)) []).2
  let guards := legs.map (fun l =>
    (List.range all).foldl (guardLc l.site.c l.slots (routeTouches l.slots ++ l.walk.touches) inj.2) (l.cl, []))
  (firstFail
    [listsVerdict pl e first p,
     failOver (legVerdict next.num) legs,
     failOver (fun g : Gate × Nat × Nat =>
       failIf ((List.range (all + gateDelay g.1.id)).any (fun t => gateSlotOk before rs g.1 t == false)) 0x000C g.2.1 g.2.2)
       (gates.zip pl.gateAt),
     failOver (fun g : (List Nat × Gate) × Nat × Nat =>
       failIf ((List.range (gateDelay g.1.2.id)).any (fun t => gateEdgeOk g.1.1 rs g.1.2 t == false)) 0x000C g.2.1 g.2.2)
       (((p.gates.map (gateHeld first)).zip gates).zip pl.gateAt),
     failOver (fun l : Leg =>
       failAt l.site.place (holdServed l.slots tt.2 ((hold.filter (fun a => a.c == l.site.c)).map Arrival.at_)
         (landSlots l.slots ((List.range l.slots.holdLc).map (· + l.slots.segLc))) == false) 0x000C) legs,
     failOver (fun g : Leg × Cluster × List Nat =>
       match g.2.2 with
       | code :: _ => failAt g.1.site.place true code
       | [] => none) (legs.zip guards),
     if relay then
       failOver (fun l : Leg =>
         failAt l.site.place (inj.2.any (fun a => a.c == l.site.c && (deferredKeys e).contains a.key &&
           deferredGuarded next.num l.cl a == false)) 0x000B) legs
     else none],
   { cls := (legs.zip guards).map (fun g => g.1.close next.num g.2.1), spans := legs.map (fun l => l.walk.settled),
     need := (legs.map (fun l => l.walk.need)).foldl max p.need, gates := gates, fed := inj.1 })

/-- Every path of a run from the release of the first weir of a list on, and the last loaded word that must be followed
to see every address: at a weir with a relay segment both segments are taken (R158, R168). -/
def pathsFrom (pl : Plan) : Bool → List WeirEntry → List Path → Verdict × Nat
  | first, e :: next :: rest, ps =>
    let rs := ps.flatMap (fun p => (if e.relay then [false, true] else [false]).map (fun r => segment pl e next first r p))
    match rs.findSome? Prod.fst with
    | some f => (some f, 0)
    | none => pathsFrom pl false (next :: rest) (rs.map Prod.snd).eraseDups
  | _, _, ps => (none, (ps.map Path.need).foldl max 0)

/-- The first failure among the loaded words from one on, so many of them. -/
def wordsFrom (f : Nat → Verdict) : Nat → Nat → Verdict
  | 0, _ => none
  | n + 1, x =>
    match f x with
    | some e => some e
    | none => wordsFrom f n (x + 1)

/-- A participant before the run's first release, from its image: registers loaded, cursors at entry 0, S0 to start at its
program, which in a gang is the leader's (R109, R110, R132, R159). -/
def runStart (img lead : Cluster) : Cluster :=
  let cl := loadCores (initBytes img) img
  { cl with s0 := { cl.s0 with st := .atWeir }, sb := [], pos := { SlotPos.reset with run := true }, late := [],
            resumeMain := dirWord lead 0x04, resumeRelay := dirWord lead 0x04, weirSent := false }

end Sys2Proof.Machine
end

