-- ==== Sys2Proof/Machine/CfgCheck.lean ====
section
/-! DEFINITION. The checks of CONFIGURE over the sections of a manifest: FIELD sections and patches, gangs, the fit, SCHED,
gates, RING and TIER (R32, R33, R157, R158, R162, R170, R176, R180, R186 to R191, R194, R195, R215, R217, R221, R250,
R252, R257 to R260, R271, R275, R276, R320, R321, R343). -/

namespace Sys2Proof.Machine

/-! ## Cluster groups (R186, R187) -/

/-- A CLUSTER record with the records that belong to it. -/
structure Group where
  u : Nat
  v : Nat
  off : Nat
  body : Bytes
  recs : List Rec
deriving DecidableEq, Repr

/-- The records before the first CLUSTER record, and the groups. -/
def groupRecs (rs : List Rec) : List Rec × List Group :=
  rs.foldr (fun r p =>
    if r.type = 0x101 then
      ([], { u := fieldB r.body 0 1, v := fieldB r.body 1 1, off := r.off, body := r.body, recs := p.1 } :: p.2)
    else (r :: p.1, p.2)) ([], [])

/-- Position of a group in its field. -/
def Group.pos (g : Group) : Nat × Nat := (g.u, g.v)

/-- The state address of a WRITE or FILL record. -/
def recAddr (r : Rec) : Nat := fieldB r.body 0 8

/-- The bytes that a WRITE or FILL record writes (R187). -/
def recData (r : Rec) : Bytes :=
  if r.type = 0x102 then r.body.drop 8
  else (List.replicate (fieldB r.body 8 8 / 8) (sliceB r.body 16 8)).flatten

/-- Length of what a WRITE or FILL record writes. -/
def recLength (r : Rec) : Nat := if r.type = 0x102 then r.body.length - 8 else fieldB r.body 8 8

/-- The space that a state address names for WRITE and FILL, by number, with its size: 0 data memory, 1 S-mem, 2 and 3
the route-table banks; none for any other (R187, R203). -/
def recSpace (a : Nat) : Option (Nat × Nat) :=
  if bits a 63 20 = 0 then some (0, dataSize)
  else if bits a 63 60 = 1 ∧ bits a 59 43 = 0 ∧ bits a 39 16 = 0 then
    (if bits a 42 40 = 0 then some (1, 0xC000) else if bits a 42 40 ≤ 2 then some (1 + bits a 42 40, 0x2000) else none)
  else none

/-- Offset in its space of a WRITE or FILL address. -/
def recOffset (a : Nat) : Nat := if bits a 63 60 = 0 then bits a 19 0 else bits a 15 0

/-- The range a WRITE or FILL record writes, space in the upper part. -/
def recRange (r : Rec) : Nat × Nat :=
  let base := ((recSpace (recAddr r)).map Prod.fst).getD 0 * 2 ^ 32 + recOffset (recAddr r)
  (base, base + recLength r)

/-- Whether a record is a WRITE or FILL. -/
def isStore (r : Rec) : Bool := r.type == 0x102 || r.type == 0x103

/-- Whether a WRITE or FILL record keeps R187 by itself. -/
def storeOk (r : Rec) : Bool :=
  (if r.type = 0x102 then decide (16 ≤ r.body.length) else r.body.length == 24 && fieldB r.body 8 8 % 8 == 0) &&
  (match recSpace (recAddr r) with
   | none => false
   | some (_, size) => recAddr r % 8 == 0 && decide (recOffset (recAddr r) + recLength r ≤ size))

/-- Eight-byte words written into a route-table bank from an entry on. -/
def writeRoute (t : Tab W64) : Nat → List Bytes → Tab W64
  | _, [] => t
  | e, b :: bs => writeRoute (Tab.set 0 t e (BitVec.ofNat 64 (leNat b))) (e + 1) bs

/-- A WRITE or FILL record applied to a cluster (R188 step 2). -/
def applyRec (cl : Cluster) (r : Rec) : Cluster :=
  let off := recOffset (recAddr r)
  let data := recData r
  if isStore r = false then cl
  else
    match recSpace (recAddr r) with
    | some (0, _) => { cl with mem := Mem.write 0 cl.mem off data }
    | some (1, _) => { cl with smem := Mem.write 0 cl.smem off data }
    | some (2, _) => { cl with rt0 := writeRoute cl.rt0 (off / 8) (chunksB 8 data.length data) }
    | some (3, _) => { cl with rt1 := writeRoute cl.rt1 (off / 8) (chunksB 8 data.length data) }
    | _ => cl

/-- The cluster that a group's records leave, from zeroed memories. -/
def Group.image (g : Group) : Cluster := g.recs.foldl applyRec Cluster.reset

/-- The checks on a group's own records, their image apart. -/
def groupVerdict (p : Place) (runBlock : Nat) (g : Group) (cl : Cluster) : Verdict :=
  let stores := g.recs.filter isStore
  firstFail
    [failAt p (g.body.length != 8) 0x0005,
     failAt p (zeroB g.body 2 6 == false) 0x0006,
     failOver (fun r => failAt { p with off := r.off } (storeOk r == false) 0x0007) stores,
     failAt p (apart (stores.map recRange) == false) 0x0007,
     failOver (fun r => failAt { p with off := r.off } (bits (recAddr r) 63 60 == 0 && recLength r != 0 &&
       decide (recOffset (recAddr r) < runBlock + 64) && decide (runBlock < recOffset (recAddr r) + recLength r)) 0x000D) stores,
     failOver (fun r =>
       let p := { p with off := r.off }
       if r.type = 0x104 then
         firstFail
           [failAt p (r.body.length != 8) 0x0005,
            failAt p (decide (fieldB r.body 0 1 < 12) || decide (17 < fieldB r.body 0 1) || fieldB r.body 1 1 == 0 ||
              decide (6 < fieldB r.body 1 1) || zeroB r.body 4 4 == false) 0x0006,
            failAt p (kernelOk cl (8 * fieldB r.body 2 2) == false) 0x0010]
       else none) g.recs]

/-! ## FIELD sections (R186) -/

/-- A FIELD section: its place in the table and in the manifest, field, RESERVE_U, and its groups with their images. -/
structure FieldSect where
  sect : Nat
  off : Nat
  field : Nat
  reserveU : Nat
  groups : List (Group × Cluster)
deriving DecidableEq, Repr

/-- Groups with their images. -/
def withImages (gs : List Group) : List (Group × Cluster) := gs.map (fun g => (g, g.image))

/-- A FIELD section read from its records. -/
def fieldSect (m : Bytes) (e : SectEnt) : FieldSect :=
  let rs := recordsOf m e
  { sect := e.no, off := e.off, field := e.index, reserveU := fieldB ((rs.head?.map (fun r : Rec => r.body)).getD []) 1 1,
    groups := withImages (groupRecs (rs.drop 1)).2 }

/-- The FIELD sections of a manifest. -/
def fieldSects (m : Bytes) : List FieldSect := (sectionsOf 1 m).map (fieldSect m)

/-- What a WRITE or FILL record writes, and where the manifest holds it (R187). -/
def writtenBy (r : Rec) : Written :=
  { base := (recRange r).1, size := recLength r, at_ := r.off + (if r.type = 0x102 then 16 else 24),
    period := if r.type = 0x102 then max 1 (recLength r) else 8 }

/-- The place of a group of a field. -/
def placeOf (sect field : Nat) (g : Group) : Place :=
  { sect := sect, off := g.off, x := (fieldOrigin field).1 + g.u, y := (fieldOrigin field).2 + g.v,
    stores := (g.recs.filter isStore).map writtenBy }

/-- Whether a directory has GANG. -/
def dirGang (cl : Cluster) : Bool := inGang cl
/-- Whether a directory has LEADER. -/
def dirLeader (cl : Cluster) : Bool := bit (dirWord cl 0x02) 1

/-- The image whose S0 program a group's cluster issues: its gang leader's, or its own (R132). -/
def leadImage (gs : List (Group × Cluster)) (g : Group × Cluster) : Cluster :=
  if dirGang g.2 then
    match gs.find? (fun h => h.1.u == g.1.u / 16 * 16 && h.1.v == g.1.v / 10 * 10) with
    | some h => h.2
    | none => g.2
  else g.2

/-- The header and order checks of a FIELD section (R186). -/
def fieldHdrVerdict (m : Bytes) (e : SectEnt) : Verdict :=
  let rs := recordsOf m e
  let hdr := (rs.head?.map (fun r : Rec => r.body)).getD []
  let gs := groupRecs (rs.drop 1)
  firstFail
    [failIf (hdr.length != 8 || fieldB hdr 0 1 != e.index || decide (31 < fieldB hdr 1 1)) 0x0005 e.no e.off,
     failIf (zeroB hdr 2 6 == false) 0x0006 e.no e.off,
     failIf (gs.1.isEmpty == false || rising (gs.2.map (fun g => posKey g.pos)) == false) 0x0005 e.no e.off,
     failOver (fun g => failAt (placeOf e.no e.index g)
       (inField e.index g.u g.v == false || g.u == fieldB hdr 1 1) 0x0007) gs.2]

/-- The content checks of some groups of a field, the gang leaders sought in `all`. -/
def groupsVerdict (weirs : List WeirEntry) (runBlock sect field : Nat) (all gs : List (Group × Cluster)) : Verdict :=
  failOver (fun g =>
    let p := placeOf sect field g.1
    firstFail
      [groupVerdict p runBlock g.1 g.2,
       clusterVerdict weirs runBlock p (clusterIn field g.1.u g.1.v) (leadImage all g) g.2]) gs

/-! ## Gang mode (R132, R320) -/

/-- Whether a field holds gangs. -/
def FieldSect.gangs (f : FieldSect) : Bool := f.groups.any (fun g => dirGang g.2)

/-- Whether a manifest is a gang-mode manifest (R320). -/
def gangMode (fs : List FieldSect) : Bool := fs.any FieldSect.gangs

/-- The member positions of the gang led at field-local (u, v): 16 × 10 without column 31 (R320). -/
def gangMembers (u v : Nat) : List (Nat × Nat) :=
  (List.range 160).filterMap (fun i =>
    let x := u + i % 16
    if x = 31 then none else some (x, v + i / 16))

/-- Whether a cluster without GANG keeps R320: routes, landing and weir arrivals only. -/
def plainOk (cl : Cluster) : Bool :=
  let ws := regionWords cl (region cl (regionOff .s0) 1) 4
  [0x0A, 0x0E, 0x12, 0x16].all (fun o => dirWord cl o == 0) &&
  ws.zipIdx.all (fun e => [0x12, 0x1B, 0x1C].contains (sop e.1) ||
    (sop e.1 == 0x0E && e.2 != 0 && sop (ws.getD (e.2 - 1) 0) == 0x1B && bit (ws.getD (e.2 - 1) 0) 9))

/-- The gang rules on a FIELD section of a gang-mode manifest. -/
def gangVerdict (f : FieldSect) : Verdict :=
  let has (p : Nat × Nat) : Bool := f.groups.any (fun g => g.1.pos == p && dirGang g.2)
  firstFail
    [failIf (f.gangs && (isRim f.field || f.reserveU != 31)) 0x000A f.sect f.off,
     failOver (fun g =>
       let p := placeOf f.sect f.field g.1
       let lead := g.1.u % 16 == 0 && g.1.v % 10 == 0
       if dirGang g.2 then
         failAt p (g.1.u == 31 || dirLeader g.2 != lead || (!lead && dirWord g.2 0x06 != 0) ||
           (gangMembers (g.1.u / 16 * 16) (g.1.v / 10 * 10)).any (fun q => has q == false)) 0x000A
       else failAt p (dirLeader g.2 || plainOk g.2 == false) 0x000A) f.groups]

/-- The gang rules of a manifest: all of R320 in a gang-mode manifest, no LEADER in any other. -/
def gangsVerdict (mode : Nat) (fs : List FieldSect) : Verdict :=
  if gangMode fs then firstFail [failIf (mode != 0) 0x000E noSect 6, failOver gangVerdict fs]
  else failOver (fun f => failOver (fun g => failAt (placeOf f.sect f.field g.1) (dirLeader g.2) 0x000A) f.groups) fs

/-! ## Patches and fit (R33, R194, R195, R321) -/

/-- The groups of a patch that starts at a byte of the manifest. -/
def patchGroups (start : Nat) (p : Bytes) : List (Group × Cluster) := withImages (groupRecs (patchRecs start p)).2

/-- The FIELD section of a field. -/
def sectOf (fs : List FieldSect) (field : Nat) : Option FieldSect := fs.find? (fun f => f.field == field)

/-- The groups of a field with a patch applied (R194): the FAILED groups gone, each group of the body in place of the
base group of its cluster or added. -/
def patched (f : FieldSect) (start : Nat) (p : Bytes) : List (Group × Cluster) :=
  let body := patchGroups start p
  (f.groups.filter (fun g => !(patchFailed p).contains g.1.pos && !body.any (fun h => h.1.pos == g.1.pos))) ++ body

/-- The FIELD sections with the groups of one field replaced. -/
def withGroups (fs : List FieldSect) (f : FieldSect) (gs : List (Group × Cluster)) : List FieldSect :=
  fs.map (fun x => if x.field = f.field then { x with groups := gs } else x)

/-- The placed clusters of a field that are not good (R195). -/
def notGood (s : State) (f : FieldSect) : List (Nat × Nat) :=
  (f.groups.filter (fun g => !isGood s (clusterIn f.field g.1.u g.1.v))).map (fun g => g.1.pos)

/-- The groups with which a field is configured, and the patch applied, if one is (R195); none when the manifest does
not fit. -/
def selectField (s : State) (patches : List Bytes) (f : FieldSect) : Option (List (Group × Cluster) × Option Bytes) :=
  let b := notGood s f
  if b.isEmpty then some (f.groups, none)
  else if 4 < b.length ∨ f.gangs = true then none
  else
    match patches.find? (fun p => patchField p == f.field && patchFailed p == b &&
      (patchTargets p).all (fun t => isGood s (clusterIn f.field t.1 t.2))) with
    | some p => some (patched f 0 p, some p)
    | none => none

/-- The groups with which a field is configured, each with its place in the resident manifest. -/
def chosen (s : State) (r : Resident) (f : FieldSect) : Option (List (Group × Cluster)) :=
  (selectField s r.patches f).map (fun x =>
    match x.2 with
    | some p => patched f (patchStart r p) p
    | none => x.1)

/-- The fit of one field to the merged map (R33, R195). -/
def fitVerdict (s : State) (r : Resident) (f : FieldSect) : Verdict :=
  match chosen s r f with
  | none =>
    failOver (fun g => failAt (placeOf f.sect f.field g.1) (isGood s (clusterIn f.field g.1.u g.1.v) == false) 0x0008) f.groups
  | some gs =>
    failOver (fun g =>
      let c := clusterIn f.field g.1.u g.1.v
      failAt (placeOf f.sect f.field g.1) (isGood s c == false || usesFailed s.map.failed c g.2) 0x0008) gs

/-! ## SCHED (R157, R158, R162, R170, R180, R190, R191) -/

/-- A condition word (R191). -/
def condOf (w : Nat) : Cond := { kind := bits w 63 60, defer := bit w 59, obj := bits w 55 32, arg := bits w 31 0 }

/-- The condition words of a WEIR record. -/
def condWords (b : Bytes) : List Nat := (List.range (fieldB b 3 1)).map (fun i => fieldB b (16 + 8 * i) 8)

/-- The digest reads of a WEIR record. -/
def digReads (b : Bytes) : List Bytes :=
  (List.range (fieldB b 4 1)).map (fun i => sliceB b (16 + 8 * fieldB b 3 1 + 16 * i) 16)

/-- A weir-table entry from its record (R191). -/
def weirOf (b : Bytes) : WeirEntry :=
  { num := fieldB b 0 2, relay := bit (fieldB b 2 1) 0, sent := bit (fieldB b 2 1) 1, deadline := fieldB b 8 4,
    relayAfter := fieldB b 12 4, conds := (condWords b).map condOf,
    digs := (digReads b).map (fun d =>
      { tid := BitVec.ofNat 32 (fieldB d 0 4), x := fieldB d 4 2, y := fieldB d 6 2, addr := fieldB d 8 4 }) }

/-- The records of the first section of a type. -/
def firstRecs (type : Nat) (m : Bytes) : List Rec := ((sectionsOf type m).head?.map (recordsOf m)).getD []

/-- Table index of the first section of a type. -/
def firstSect (type : Nat) (m : Bytes) : Nat := ((sectionsOf type m).head?.map (fun e => e.no)).getD noSect

/-- The SCHED_HDR body. -/
def schedHdr (m : Bytes) : Bytes := ((firstRecs 4 m).head?.map (fun r : Rec => r.body)).getD []

/-- The WEIR records. -/
def weirRecs (m : Bytes) : List Rec := (firstRecs 4 m).drop 1

/-- The weir table of a manifest. -/
def weirTable (m : Bytes) : List WeirEntry := (weirRecs m).map (fun r => weirOf r.body)

/-- RUN_BLOCK of a manifest. -/
def runBlockAddr (m : Bytes) : Nat := fieldB (schedHdr m) 0 4

/-- GEAR_DIV of a manifest. -/
def gearDivs (m : Bytes) : List Nat := (List.range 4).map (fun g => fieldB (schedHdr m) (4 + g) 1)

/-- The standard divisors (R180). -/
def stdDivs : List Nat := [12, 15, 20, 30]

/-- Highest OBJ bit count of each condition kind (R191). -/
def objBits : List Nat := [0, 19, 15, 20, 16, 8, 0, 0]

/-- The reserved fields of a condition word (R191). -/
def condReserved (w : Nat) : Bool :=
  bits w 58 56 != 0 || decide (2 ^ objBits.getD (bits w 63 60) 24 ≤ bits w 55 32) || (bits w 63 60 != 2 && bits w 31 0 != 0)

/-- Whether a condition keeps R157, R158 and R162 in the weir at an index. -/
def condOk (ix : Nat) (relay : Bool) (c : Cond) : Bool :=
  decide (1 ≤ c.kind) && decide (c.kind ≤ 7) && (!c.defer || relay) && (c.kind != 7 || ix == 0) &&
  (c.kind != 1 || decide (c.obj / 32768 < 12)) && (c.kind != 2 || decide (c.obj < 24576))

/-- The checks on one WEIR record. -/
def weirVerdict (sect : Nat) (parts : List Nat) (last : Nat) (e : Rec × Nat) : Verdict :=
  let b := e.1.body
  let w := weirOf b
  firstFail
    [failIf (b.length != 16 + 8 * fieldB b 3 1 + 16 * fieldB b 4 1) 0x000D sect e.1.off,
     failIf (decide (4 ≤ fieldB b 2 1) || zeroB b 5 3 == false || (condWords b).any condReserved ||
       (digReads b).any (fun d => zeroB d 12 4 == false)) 0x0006 sect e.1.off,
     failIf (decide (w.deadline < 1000) || decide (600000000 < w.deadline) || decide (1000000 < w.relayAfter) ||
       (!w.relay && w.relayAfter != 0) || decide (32 < w.conds.length) || decide (16 < w.digs.length) ||
       w.conds.any (fun c => condOk e.2 w.relay c == false) ||
       ((e.2 == 0 || e.2 == last) && (w.relay || w.sent)) ||
       w.digs.any (fun d => parts.contains (cnum d.x d.y) == false || decide (352 ≤ d.x) || decide (d.addr < pBase) ||
         d.addr % 16 != 0 || decide (dataSize < d.addr + 16))) 0x000D sect e.1.off]

/-- The checks on the SCHED section; `parts` are the participants. -/
def schedVerdict (m : Bytes) (parts : List Nat) : Verdict :=
  let sect := firstSect 4 m
  let at_ := ((firstRecs 4 m).head?.map (fun r : Rec => r.off)).getD 0
  let h := schedHdr m
  let ws := weirTable m
  let rb := runBlockAddr m
  firstFail
    [failIf (h.length != 32 || (weirRecs m).length != fieldB h 8 4 || decide (ws.length < 2) ||
       decide (65536 < ws.length)) 0x000D sect at_,
     failIf (zeroB h 12 4 == false) 0x0006 sect (at_ + 20),
     failIf ((gearDivs m).zip stdDivs |>.any (fun e => decide (e.1 < e.2) || decide (60 < e.1))) 0x000F sect (at_ + 12),
     failIf (((gearDivs m).zip ((gearDivs m).drop 1)).any (fun e => decide (e.2 < e.1))) 0x000F sect (at_ + 12),
     failIf (rb % 64 != 0 || decide (pBase < rb + 64)) 0x000D sect at_,
     failIf (rising (ws.map (fun w => w.num)) == false) 0x000D sect at_,
     failOver (weirVerdict sect parts (ws.length - 1)) (weirRecs m).zipIdx,
     failIf ((ws.zip (ws.drop 1)).any (fun e => e.1.relay &&
       decide (32 < e.2.conds.length + (e.1.conds.filter (fun c => c.defer)).length))) 0x000D sect at_,
     failIf (!ws.any (fun w => w.sent) && zeroB h 16 16 == false) 0x000D sect at_]

/-! ## Gates (R189, R221, R257) -/

/-- The GATE records of a section. -/
def gateRecs (rs : List Rec) : List Rec := rs.filter (fun r => r.type == 0x203)

/-- The gate that a GATE record describes. -/
def gateOf (b : Bytes) : Gate :=
  let n0 := fieldB b 4 2
  let word (i : Nat) : W64 := BitVec.ofNat 64 (fieldB b (16 + 8 * i) 8)
  { id := { stackGate := fieldB b 0 1 == 1, site := fieldB b 1 1, link := fieldB b 2 1 },
    bank0 := (List.range n0).map word, bank1 := (List.range (fieldB b 6 2)).map (fun i => word (n0 + i)),
    pos := SlotPos.reset }

/-- The reserved fields of a gate entry (R189, R221, R257). -/
def gateReserved (stackGate : Bool) (e : Nat) : Bool :=
  decide (3 < gateAct e) || bits e 39 10 != 0 || (gateAct e == 0 && gateObj e != 0) ||
  (if stackGate then bits (gateObj e) 18 16 != 0
   else if gateAct e = 3 then decide (16 ≤ gateObj e) else decide (32768 ≤ gateObj e))

/-- Whether a gate entry keeps R189 and R221 by itself: no south face at dies 8 to 11, a list of its direction. -/
def gateEntryOk (g : GateId) (e : Nat) : Bool :=
  (g.stackGate || decide (g.site < 8) || !gateFace e) &&
  (!g.stackGate || gateAct e == 0 || bit (gateObj e) 19 == (gateAct e == 3))

/-- Whether a bank of a gate keeps R143 and R189. -/
def gateBankOk (b : List W64) : Bool :=
  b.isEmpty ||
  (let ent (i : Nat) : Nat := (b.getD i 0).toNat
   match slotLists ent b.length b.length 0 with
   | none => false
   | some ls =>
     bankOk ent b.length ls && ls.all (fun l => (span l.start l.hold).all (fun i => !bit (ent i) 1)))

/-- The checks on one GATE record of a section of a type and index. -/
def gateVerdict (type index sect : Nat) (r : Rec) : Verdict :=
  let b := r.body
  let g := gateOf b
  let es := (g.bank0 ++ g.bank1).map (fun w => w.toNat)
  firstFail
    [failIf (b.length != 16 + 8 * (fieldB b 4 2 + fieldB b 6 2) || decide (1024 < fieldB b 4 2) ||
       decide (1024 < fieldB b 6 2) || fieldB b 0 1 != (if type = 3 then 1 else 0) || gateExists g.id == false ||
       (type == 2 && g.id.site != index)) 0x000C sect r.off,
     failIf (zeroB b 3 1 == false || zeroB b 8 8 == false || es.any (gateReserved g.id.stackGate)) 0x0006 sect r.off,
     failIf (es.any (fun e => gateEntryOk g.id e == false) || gateBankOk g.bank0 == false || gateBankOk g.bank1 == false)
       0x000C sect r.off]

/-- The checks on the GATE records of a section. -/
def gatesVerdict (m : Bytes) (e : SectEnt) : Verdict :=
  let rs := gateRecs (recordsOf m e)
  firstFail
    [failOver (gateVerdict e.type e.index e.no) rs,
     failIf (distinct (rs.map (fun r => (gateOf r.body).id)) == false) 0x000C e.no e.off]

/-- The gates of a manifest. -/
def manifestGates (m : Bytes) : List Gate :=
  (sectionsOf 2 m ++ sectionsOf 3 m).flatMap (fun e => (gateRecs (recordsOf m e)).map (fun r => gateOf r.body))

/-- Whether gate entries of a site name an object by an action. -/
def named (gs : List Gate) (stackGate : Bool) (site act obj : Nat) : Bool :=
  gs.any (fun g => g.id.stackGate == stackGate && g.id.site == site &&
    (g.bank0 ++ g.bank1).any (fun w => gateAct w.toNat == act && gateObj w.toNat == obj))

/-- The injected objects of the gates: site kind, site, object. -/
def injected (gs : List Gate) : List (Bool × Nat × Nat) :=
  (gs.flatMap (fun g => (g.bank0 ++ g.bank1).filterMap (fun w =>
    if gateAct w.toNat = 1 ∨ gateAct w.toNat = 2 then some (g.id.stackGate, g.id.site, gateObj w.toNat) else none))).eraseDups

/-- Whether a gate injects a sluice or a staging list that gate entries of both kinds inject (R221, R252). -/
def bothKinds (gs : List Gate) (g : Gate) : Bool :=
  (injected [g]).any (fun o => named gs o.1 o.2.1 1 o.2.2 && named gs o.1 o.2.1 2 o.2.2)

/-! ## RING (R250, R252, R258 to R260, R271, R275, R276, R343) -/

/-- The record bodies of a type in a section. -/
def bodies (type : Nat) (m : Bytes) (e : SectEnt) : List Bytes :=
  ((recordsOf m e).filter (fun r => r.type == type)).map (fun r => r.body)

/-- The records of a type in a section. -/
def recsIn (type : Nat) (m : Bytes) (e : SectEnt) : List Rec := (recordsOf m e).filter (fun r => r.type == type)

/-- The record bodies of a type in every section of a section type. -/
def allBodies (type sectType : Nat) (m : Bytes) : List Bytes := (sectionsOf sectType m).flatMap (bodies type m)

/-- The PORTROLE records with their section. -/
def portRoles (m : Bytes) : List Bytes := allBodies 0x200 2 m

/-- The checks on PORTROLE records of a ring die (R250). -/
def roleVerdict (index sect : Nat) (r : Rec) : Verdict :=
  let b := r.body
  let role := fieldB b 1 1
  firstFail
    [failIf (decide (9 < role) || decide (4 ≤ fieldB b 4 1) || zeroB b 5 3 == false) 0x0006 sect r.off,
     failIf (b.length != 8 || fieldB b 0 1 / 2 != index || decide (23 < fieldB b 2 1) || decide (23 < fieldB b 3 1) ||
       (role == 0 && zeroB b 2 3 == false)) 0x0011 sect r.off]

/-- The PORTROLE records of bundles: those whose role is not IDLE. -/
def bundled (m : Bytes) : List Bytes := (portRoles m).filter (fun b => fieldB b 1 1 != 0)

/-- Whether a PORTROLE record keeps the bundle rules beside all others: its port named once; the same role and flags in its
whole bundle; its member index its own and below the bundle's size; one bundle of a HEADGATE or CHAIN role (R250, R275). -/
def bundleOk (m b : Bytes) : Bool :=
  let ps := bundled m
  let us := ps.filter (fun c => fieldB c 2 1 == fieldB b 2 1)
  ((portRoles m).filter (fun c => fieldB c 0 1 == fieldB b 0 1)).length == 1 &&
  (fieldB b 1 1 == 0 ||
    (us.all (fun c => fieldB b 1 1 == fieldB c 1 1 && fieldB b 4 1 == fieldB c 4 1) &&
      (us.filter (fun c => fieldB c 3 1 == fieldB b 3 1)).length == 1 && decide (fieldB b 3 1 < us.length) &&
      ([rHeadgate, rChainIn, rChainOut].contains (fieldB b 1 1) == false ||
        ps.all (fun c => fieldB c 1 1 != fieldB b 1 1 || fieldB c 2 1 == fieldB b 2 1))))

/-- A sluice template from its record (R252). -/
def sluiceOf (b : Bytes) : Sluice :=
  let ctrl := fieldB b 6 1
  { Sluice.reset with
    present := true, template := true, openWeir := fieldB b 2 2, closeWeir := fieldB b 4 2, marker := bit ctrl 0,
    units := bit ctrl 1, vsrc := bits ctrl 3 2, tee := bit ctrl 4, carry := bit ctrl 6, trailer := bit ctrl 7,
    count := fieldB b 8 4, tid := BitVec.ofNat 32 (fieldB b 16 4),
    firstUnit := if bit ctrl 1 then fieldB b 20 4 else 0, row := if bit ctrl 1 then 0 else fieldB b 20 2,
    rowStep := if bit ctrl 1 then 0 else fieldB b 22 2, bmap := fieldB b 24 4 }

/-- The most landing rows of a tile of a sluice: payload, and up to two trailer rows, as its TRB says (R252, R257). -/
def tileRows (x : Sluice) : Nat := 32 + 2 * b2n x.trailer

/-- The row rules of a TARGET 0 sluice (R252). -/
def sluiceRowsOk (gs : List Gate) (die index : Nat) (x : Sluice) : Bool :=
  let lands := named gs false die 1 index
  let first := x.row % 1024
  if lands && !x.marker then
    bits x.row 14 10 == 0 && decide (tileRows x ≤ x.rowStep) &&
      (x.count == 0 || decide (first + (x.count - 1) * x.rowStep + tileRows x ≤ 1024))
  else x.row == 0 && x.rowStep == 0

/-- The checks on a SLUICE record (R252, R271). -/
def sluiceVerdict (weirs : List WeirEntry) (gs : List Gate) (die sect : Nat) (r : Rec) : Verdict :=
  let b := r.body
  let x := sluiceOf b
  let ctrl := fieldB b 6 1
  firstFail
    [failIf (bits ctrl 3 2 == 3 || bit ctrl 5 || zeroB b 7 1 == false || zeroB b 12 4 == false ||
       zeroB b 28 4 == false || zeroB b 32 32 == false) 0x0006 sect r.off,
     failIf (b.length != 64 || decide (32768 ≤ fieldB b 0 2) || decide (65536 < x.count) || x.bmap % 64 != 0 ||
       decide (poolBits < x.bmap + x.count) || decide (weirPos weirs x.closeWeir ≤ weirPos weirs x.openWeir) ||
       decide (weirs.length ≤ weirPos weirs x.closeWeir) || (x.marker && x.tid != 0) ||
       (x.carry && (x.marker || !x.units || x.vsrc != 1 || x.tid.getLsbD 31)) || (x.trailer && (x.units || x.marker)) ||
       (x.units && decide (2 ^ 29 < x.firstUnit + x.count)) ||
       (!x.units && sluiceRowsOk gs die (fieldB b 0 2) x == false) || (isShard x && decide (x.count < 2))) 0x0011 sect r.off]

/-- The descriptors of a TQLIST record. -/
def listDescs (b : Bytes) : List Bytes := (List.range (fieldB b 4 4)).map (fun i => sliceB b (16 + 64 * i) 64)

/-- Whether a port has the role OUTLET. -/
def outletQueue (m : Bytes) (queue : Nat) : Bool :=
  (portRoles m).any (fun b => fieldB b 0 1 == queue / 1024 && fieldB b 1 1 == rOutlet)

/-- Whether a descriptor keeps the limit on what a COPY on an OUTLET bundle names (R282). -/
def outletOk (m : Bytes) (queue : Nat) (d : Bytes) : Bool :=
  !(outletQueue m queue && fieldB d 0 1 == 1 && fieldB d 8 4 != 0) || decide (fieldB d 18 2 + fieldB d 8 4 ≤ 65535)

/-- The checks on a TQLIST record (R237, R258 to R260, R282). -/
def tqVerdict (m : Bytes) (weirs : List WeirEntry) (die sect : Nat) (r : Rec) : Verdict :=
  let b := r.body
  let ds := listDescs b
  firstFail
    [failIf (zeroB b 2 2 == false || zeroB b 12 4 == false) 0x0006 sect r.off,
     failIf (b.length != 16 + 64 * fieldB b 4 4 || fieldB b 0 2 / 2048 != die || decide (4096 < fieldB b 4 4) ||
       fieldB b 0 2 % 1024 == 1023 || decide (2 ^ 29 ≤ fieldB b 8 4) ||
       ds.any (fun d => descBytesOk d == false || (descOf false d).weirStart == false ||
         decide (weirs.length ≤ weirPos weirs (descOf false d).startWeir)) ||
       distinct (ds.map (fun d => fieldB d 4 4)) == false || ds.any (fun d => outletOk m (fieldB b 0 2) d == false))
       0x0011 sect r.off]

/-- Whether a queue's port leads a CHAIN-OUT bundle (R276). -/
def onChainOut (m : Bytes) (queue : Nat) : Bool :=
  (bundled m).any (fun b => fieldB b 0 1 == queue / 1024 && fieldB b 1 1 == rChainOut && fieldB b 3 1 == 0)

/-- The PASS descriptors of a manifest with their queues (R259). -/
def passDescs (m : Bytes) : List (Nat × Bytes) :=
  (allBodies 0x202 2 m).flatMap (fun q => ((listDescs q).filter (fun d => fieldB d 0 1 == 3)).map (fun d => (fieldB q 0 2, d)))

/-- Whether each shard sluice of a ring die has its PASS descriptor on the CHAIN-OUT bundle, and a manifest without that
bundle, the tail's, none at all (R276). -/
def passesOk (m : Bytes) (e : SectEnt) : Bool :=
  if (bundled m).any (fun b => fieldB b 1 1 == rChainOut) then
    (bodies 0x201 m e).all (fun b =>
      let i := fieldB b 0 2
      !isShard (sluiceOf b) ||
        (passDescs m).any (fun x => onChainOut m x.1 && fieldB x.2 12 4 == i && fieldB x.2 16 2 == i && fieldB x.2 18 2 == 0 &&
          fieldB x.2 8 4 == (sluiceOf b).count))
  else (passDescs m).isEmpty

/-- The checks on a RING section. -/
def ringVerdict (m : Bytes) (weirs : List WeirEntry) (gs : List Gate) (guard : Bool) (e : SectEnt) : Verdict :=
  let roles := bodies 0x200 m e
  let slu := bodies 0x201 m e
  let tqs := bodies 0x202 m e
  firstFail
    [failOver (roleVerdict e.index e.no) (recsIn 0x200 m e),
     failOver (sluiceVerdict weirs gs e.index e.no) (recsIn 0x201 m e),
     failIf (distinct (slu.map (fun b => fieldB b 0 2)) == false ||
       apart (slu.map (fun b => ((sluiceOf b).bmap, (sluiceOf b).bmap + (sluiceOf b).count))) == false) 0x0011 e.no e.off,
     failOver (tqVerdict m weirs e.index e.no) (recsIn 0x202 m e),
     failIf (distinct (tqs.map (fun b => fieldB b 0 2)) == false ||
       decide (65536 < (tqs.map (fun b => fieldB b 4 4)).foldl (· + ·) 0) || passesOk m e == false) 0x0011 e.no e.off,
     failIf (guard && (roles.any (fun b => [0, rTier, rTee].contains (fieldB b 1 1) == false) ||
       tqs.any (fun b => (listDescs b).any (fun d => [1, 2, 3, 5, 6, 7].contains (fieldB d 0 1))))) 0x0011 e.no e.off]

/-! ## TIER (R215, R217, R218, R221) -/

/-- The checks on a QUOTA record against the account's USED (R215). -/
def quotaVerdict (s : State) (sect : Nat) (r : Rec) : Verdict :=
  let b := r.body
  let t := fieldB b 0 1
  firstFail
    [failIf (t == 0 || decide (3 < t) || decide (2 ≤ fieldB b 2 1) || zeroB b 3 5 == false || zeroB b 17 7 == false)
       0x0006 sect r.off,
     failIf (b.length != 32 || decide (63 < fieldB b 1 1) || (t == 1 && decide (allSlots < fieldB b 8 8)) ||
       (t == 1 && (fieldB b 16 1 != 0 || fieldB b 24 8 != 0)) || decide (23 < fieldB b 16 1) ||
       decide (fieldB b 8 8 < (acctAt s t (fieldB b 1 1)).used)) 0x0011 sect r.off]

/-- A migration list from its record (R217). -/
def migListOf (b : Bytes) : MigList :=
  { list := fieldB b 0 2, startWeir := fieldB b 2 2, entries := (entriesAt b 16 (fieldB b 4 4)).map migEntryOf }

/-- Whether every unit, slot and home index that a migration entry names exists (R218). -/
def migPlacesOk (e : MigEntry) : Bool :=
  decide (e.unit + e.count ≤ 2 ^ 29) &&
  (!([1, 5, 6].contains e.op) || decide (bits e.loc 22 0 + e.count ≤ slotsPerStack)) &&
  (e.op != 7 || decide (e.loc + e.count ≤ 2 ^ 48))

/-- The checks on a MIGLIST record (R217, R218). -/
def migVerdict (weirs : List WeirEntry) (sect : Nat) (r : Rec) : Verdict :=
  let b := r.body
  let n := fieldB b 4 4
  firstFail
    [failIf (zeroB b 8 8 == false) 0x0006 sect r.off,
     failIf (b.length != 16 + 16 * n || decide (1048576 < n) || decide (32768 ≤ fieldB b 0 2) ||
       decide (weirs.length ≤ weirPos weirs (fieldB b 2 2)) ||
       (entriesAt b 16 n).any (fun e => migEntryOk e == false || migPlacesOk (migEntryOf e) == false)) 0x0011 sect r.off]

/-- A staging or extraction entry from its 32 bytes (R221). -/
def stageEntOf (b : Bytes) : StageEnt :=
  let fl := fieldB b 6 1
  { unit := fieldB b 0 4, count := fieldB b 4 2, trailer := bit fl 0, mode := bits fl 2 1, trows := fieldB b 7 1,
    amem := bit (fieldB b 8 2) 15, row := fieldB b 8 2 % 1024, rowStep := fieldB b 10 2,
    tid := BitVec.ofNat 32 (fieldB b 12 4), fmt := fieldB b 16 1, shape := fieldB b 17 1, trow := fieldB b 18 3,
    tcol := fieldB b 21 3, trb := fieldB b 24 2 }

/-- Whether an entry has no non-zero reserved field and no reserved code: UNIT, FLAGS and MODE, bytes 26 to 31, and FMT and
SHAPE of an extraction STORE (R10, R42, R221, R267). -/
def stageEntCoded (extraction : Bool) (b : Bytes) : Bool :=
  let e := stageEntOf b
  decide (e.unit < 2 ^ 29) && decide (fieldB b 6 1 < 8) && decide (e.mode ≤ 2) && zeroB b 26 6 &&
  (!extraction || e.mode != 0 ||
    (decide (1 ≤ e.fmt) && decide (e.fmt ≤ 0x0C) && [0x01, 0x02, 0x03, 0x7F].contains (e.shape % 128)))

/-- Whether a staging or extraction entry keeps the other rules of R221; an ADD entry's bytes 12 to 23 hold nothing it
uses. -/
def stageEntOk (extraction : Bool) (b : Bytes) : Bool :=
  let e := stageEntOf b
  decide (e.unit + e.count ≤ 2 ^ 29) &&
  (if e.trailer then e.trows == 1 || e.trows == 2 else e.trows == 0) &&
  (if extraction then
     zeroB b 8 4 && (e.mode == 0 || !e.trailer) &&
     (if e.trailer then e.trb % 8 == 0 && decide (512 * (e.trows - 1) < e.trb) && decide (e.trb ≤ 512 * e.trows)
      else e.trb == 0)
   else
     e.mode == 0 && bits (fieldB b 8 2) 14 10 == 0 && zeroB b 12 14 &&
     (e.count == 0 || decide (e.row + (e.count - 1) * e.rowStep + 32 + e.trows ≤ 1024)))

/-- The 32-byte entries of a STAGELIST record. -/
def stageEnts (b : Bytes) : List Bytes := (List.range (fieldB b 8 4)).map (fun i => sliceB b (16 + 32 * i) 32)

/-- Key of a STAGELIST record's list. -/
def stageListKey (b : Bytes) : Nat := stageKey (fieldB b 0 1) (fieldB b 1 1 == 1) (fieldB b 2 2)

/-- The checks on a STAGELIST record (R221). -/
def stageVerdict (weirs : List WeirEntry) (gs : List Gate) (sect : Nat) (r : Rec) : Verdict :=
  let b := r.body
  let x := fieldB b 1 1 == 1
  firstFail
    [failIf (zeroB b 6 2 == false || zeroB b 12 4 == false || (stageEnts b).any (fun e => stageEntCoded x e == false))
       0x0006 sect r.off,
     failIf (b.length != 16 + 32 * fieldB b 8 4 || decide (16 ≤ fieldB b 0 1) || decide (2 ≤ fieldB b 1 1) ||
       decide (weirs.length ≤ weirPos weirs (fieldB b 4 2)) || (stageEnts b).any (fun e => stageEntOk x e == false) ||
       (!x && named gs true (fieldB b 0 1) 2 (fieldB b 2 2) && (stageEnts b).any (fun e => zeroB e 8 4 == false)))
       0x0011 sect r.off]

/-- The checks on the TIER section. -/
def tierVerdict (s : State) (m : Bytes) (weirs : List WeirEntry) (gs : List Gate) : Verdict :=
  let sect := firstSect 3 m
  let at_ := ((sectionsOf 3 m).head?.map (fun e : SectEnt => e.off)).getD 0
  let recs (type : Nat) : List Rec := (sectionsOf 3 m).flatMap (recsIn type m)
  firstFail
    [failOver (quotaVerdict s sect) (recs 0x300),
     failOver (migVerdict weirs sect) (recs 0x301),
     failOver (stageVerdict weirs gs sect) (recs 0x302),
     failIf (distinct ((recs 0x301).map (fun r => fieldB r.body 0 2)) == false ||
       distinct ((recs 0x302).map (fun r => stageListKey r.body)) == false) 0x0011 sect at_]

/-! ## Mode (R176) -/

/-- Whether a tile of a format and shape carries a gradient in SC or FC. -/
def scFc (fmt shape : Nat) : Bool := shape % 128 == 3 && (fmt == 0x09 || fmt == 0x02)

/-- Whether a descriptor of a TQLIST record forms a carry tile in SC or FC. -/
def listCarries (b : Bytes) : Bool :=
  (listDescs b).any (fun d => (descOf false d).srcx && scFc (descOf false d).fmt (descOf false d).shape)

/-- Whether an entry of an extraction list forms a carry tile in SC or FC. -/
def extractCarries (b : Bytes) : Bool :=
  fieldB b 1 1 == 1 && (stageEnts b).any (fun e =>
    (stageEntOf e).mode == 0 && scFc (stageEntOf e).fmt (stageEntOf e).shape)

/-- The canonical-mode check on some groups of a field. -/
def scntVerdict (m : Bytes) (sect field : Nat) (gs : List (Group × Cluster)) : Verdict :=
  failOver (fun g => failAt (placeOf sect field g.1) (hdrMode m == 1 && hasScnt g.2) 0x000E) gs

/-- The canonical-mode check (R176): no carry in SC or FC that a descriptor or an extraction list forms, no SCNT. -/
def modeVerdict (m : Bytes) (fs : List FieldSect) : Verdict :=
  let broken (type sectType : Nat) (bad : Bytes → Bool) : Verdict :=
    failOver (fun e => failOver (fun r => failIf (hdrMode m == 1 && bad r.body) 0x000E e.no r.off) (recsIn type m e))
      (sectionsOf sectType m)
  firstFail
    [broken 0x202 2 listCarries, broken 0x302 3 extractCarries, failOver (fun f => scntVerdict m f.sect f.field f.groups) fs]

/-! ## Program paths and schedules (log entries 15, 93) -/

/-- The sections and manifest offsets of the GATE records, in the order of the gates. -/
def gatePlaces (m : Bytes) : List (Nat × Nat) :=
  (sectionsOf 2 m ++ sectionsOf 3 m).flatMap (fun e => (gateRecs (recordsOf m e)).map (fun r => (e.no, r.off)))

/-- The landing rows of the cluster-memory sluices and of the staging lists, with `trailer` rows behind each tile of a
sluice that places trailers (R102, R221, R257). -/
def feedsOf (m : Bytes) (trailer : Nat) : Feeds :=
  (sectionsOf 2 m).flatMap (fun e => (bodies 0x201 m e).map (fun b =>
    let x := sluiceOf b
    ((false, e.index, fieldB b 0 2),
     if x.units || x.marker then [] else tileLands (bit x.row 15) (x.row % 1024) x.rowStep x.count (32 + trailer * b2n x.trailer)))) ++
  (allBodies 0x302 3 m).filterMap (fun b =>
    if fieldB b 1 1 = 1 then none
    else
      some ((true, fieldB b 0 1, fieldB b 2 2),
        ((stageEnts b).map stageEntOf).flatMap (fun e => tileLands e.amem e.row e.rowStep e.count e.tileRows)))

/-- The participants with their clusters before the first release. -/
def sitesOf (fs : List FieldSect) : List (Site × Cluster) :=
  fs.flatMap (fun f => f.groups.map (fun g =>
    let c := clusterIn f.field g.1.u g.1.v
    ({ c := c, leader := if dirGang g.2 then gangLeader c else c, place := placeOf f.sect f.field g.1 },
     runStart g.2 (leadImage f.groups g))))

/-- Whether some sluice places trailers in cluster memory. -/
def placesTrailers (m : Bytes) : Bool :=
  (allBodies 0x201 2 m).any (fun b => (sluiceOf b).trailer)

/-- The verdict on every path of a run. An address register depends on at most one loaded word (R115, R116), so that the
paths are followed for each value that all loaded words may have, as far as addresses depend on it; they hold for one of the
numbers of trailer rows. -/
def pathsVerdict (m : Bytes) (weirs : List WeirEntry) (fs : List FieldSect) : Verdict :=
  let sites := sitesOf fs
  let start : Path := { cls := sites.map Prod.snd, spans := sites.map (fun _ => []), need := 0, gates := manifestGates m, fed := [] }
  let run (trailer x : Nat) : Verdict × Nat :=
    pathsFrom { sites := sites.map Prod.fst, gateAt := gatePlaces m, feeds := feedsOf m trailer, x := x } true weirs [start]
  let vs := (if placesTrailers m then [2, 1] else [2]).map (fun n =>
    let first := run n 0
    if first.1.isSome then first.1 else wordsFrom (fun x => (run n x).1) first.2 1)
  if vs.any Option.isNone then none else vs.head?.join

/-! ## Patches (R194) -/

/-- The content rules of a patch that starts at a byte of a manifest with some FIELD sections (R148, R176, R194, R320,
R321), each failing with 0x0009 in the RELIEF section: at the record of the patch that fails, else where the patch starts. -/
def patchVerdict (m : Bytes) (fs : List FieldSect) (start : Nat) (p : Bytes) : Verdict :=
  let bad (b : Bool) : Verdict := failIf b 0x0009 noSect start
  match sectOf fs (patchField p) with
  | none => bad true
  | some f =>
    let gs := groupRecs (patchRecs start p)
    let pos := gs.2.map Group.pos
    let base := f.groups.map (fun g => g.1.pos)
    let ts := patchTargets p
    firstFail
      [bad (f.gangs || gs.1.isEmpty == false || rising (pos.map posKey) == false ||
         (patchFailed p).any (fun x => base.contains x == false || pos.contains x) ||
         ts.any (fun x => pos.contains x == false || x.1 != f.reserveU) || distinct ts == false ||
         pos.any (fun x => inField f.field x.1 x.2 == false || (x.1 == f.reserveU && ts.contains x == false))),
       (firstFail
         [groupsVerdict (weirTable m) (runBlockAddr m) noSect f.field (patched f start p) (patchGroups start p),
          gangsVerdict (hdrMode m) (withGroups fs f (patched f start p)),
          scntVerdict m noSect f.field (patchGroups start p),
          pathsVerdict m (weirTable m) (withGroups fs f (patched f start p))]).map
         (fun e => { e with code := 0x0009, sect := noSect, off := if e.off < start then start else e.off })]

/-! ## The check pass (R200) -/

/-- The participants: the clusters that the selected groups place work on (R152, R186, R195). -/
def placedClusters (s : State) (patches : List Bytes) (fs : List FieldSect) : List Nat :=
  fs.flatMap (fun f =>
    match selectField s patches f with
    | some (gs, _) => gs.map (fun g => clusterIn f.field g.1.u g.1.v)
    | none => [])

/-- The patches that the fit applies, by field (R195). -/
def appliedPatches (s : State) (patches : List Bytes) (fs : List FieldSect) : List (Nat × Bytes) :=
  fs.filterMap (fun f => (selectField s patches f).bind (fun x => x.2.map (fun p => (f.field, p))))

/-- The FIELD sections with the patches that the fit applies (R195). -/
def selected (s : State) (r : Resident) (fs : List FieldSect) : List FieldSect :=
  fs.map (fun f => { f with groups := (chosen s r f).getD f.groups })

/-- The section of a failure: the RELIEF section for a byte behind body and SIG (R183, R201). -/
def CheckFail.inRelief (size : Nat) (e : CheckFail) : CheckFail := if size ≤ e.off then { e with sect := noSect } else e

/-- The check pass of CONFIGURE (R200, R343). -/
def checkVerdict (s : State) (r : Resident) (m : Bytes) : Verdict :=
  let ws := weirTable m
  let rb := runBlockAddr m
  let fs := fieldSects m
  let gs := manifestGates m
  (firstFail
    [schedVerdict m (placedClusters s r.patches fs),
     failOver (fieldHdrVerdict m) (sectionsOf 1 m),
     failOver (fun f => groupsVerdict ws rb f.sect f.field f.groups f.groups) fs,
     gangsVerdict (hdrMode m) fs,
     failOver (fun p => patchVerdict m fs p.1 p.2) (placedPatches (r.size + 16) r.patches),
     failOver (fitVerdict s r) fs,
     gangsVerdict (hdrMode m) (selected s r fs),
     failOver (gatesVerdict m) (sectionsOf 2 m ++ sectionsOf 3 m),
     failOver (fun g : Gate × Nat × Nat => failIf (bothKinds gs g.1) 0x0011 g.2.1 g.2.2) (gs.zip (gatePlaces m)),
     failOver (ringVerdict m ws gs s.dev.guard) (sectionsOf 2 m),
     failOver (fun e => failOver (fun x => failIf (bundleOk m x.body == false) 0x0011 e.no x.off) (recsIn 0x200 m e))
       (sectionsOf 2 m),
     tierVerdict s m ws gs,
     modeVerdict m fs,
     failOver (pathsVerdict m ws) [fs, selected s r fs].eraseDups]).map (CheckFail.inRelief r.size)

end Sys2Proof.Machine
end

