-- ==== Sys2Proof/Machine/Configure.lean ====
section
/-! DEFINITION. The mailbox commands on the manifest: LOAD, VERIFY, CONFIGURE, RELIEF and their ends (R188, R195 to R201,
R340, R341). -/

namespace Sys2Proof.Machine

/-! ## LOAD and VERIFY (R197, R199) -/

/-- Whether a declaration names the resident manifest (R197). -/
def keepsResident (s : State) (d : LoadDecl) : Bool := s.resident.any (fun r => r.key == d.key && r.digest == d.digest)

/-- The declaration of a LOAD payload (R340). -/
def declOf (pl : Bytes) : LoadDecl := { key := sliceB pl 0 32, digest := sliceB pl 40 32, size := fieldB pl 32 8 }

/-- The load window opens: the resident manifest and its patches are gone (R197). -/
def openLoad (d : LoadDecl) (s : State) : State :=
  { s with decl := some d, resident := none, image := none,
           dev := { s.dev with st := .loadOpen, loadOpen := true, loadSize := d.size } }

/-- LOAD: the resident manifest is kept, or the load window opens (R197, R340). -/
def execLoad (pl : Bytes) (s : State) : Out :=
  vendor 0xC101 false [.ready, .resident, .configured] (fun s =>
    let d := declOf pl
    if d.size < 4096 ∨ maxManifest < d.size ∨ d.size % 8 ≠ 0 then reply .range [] s
    else if keepsResident s d then reply .ok (toLe 8 1) s
    else reply .ok (toLe 8 0) (openLoad d s)) s

/-- VERIFY: the window closes and the checks begin (R199, R340). -/
def execVerify (s : State) : Out :=
  vendor 0xC102 false [.loadOpen] (fun s => started .verify { s with dev := { s.dev with loadOpen := false } }) s

/-- DATA of the events 0x0400 and 0x0401 (R367). -/
def failBytes (f : CheckFail) : Bytes := toLe 2 f.code ++ toLe 2 f.sect ++ toLe 8 f.off ++ toLe 2 f.x ++ toLe 2 f.y

/-- The event of a failed check, and one more with the S-mem offset in place of the manifest's where the check has one
(R111, R201; log entry 43). -/
def logFail (f : CheckFail) (s : State) : State :=
  let s := logEvent 0x0401 0 0 0 (failBytes f) s
  match f.smem with
  | some o => logEvent 0x0401 0 0 0 (failBytes { f with off := o }) s
  | none => s

/-- A background command ends with a failed check (R201). -/
def bgFail (opcode : Nat) (f : CheckFail) (s : State) : State :=
  finishBg
    { BgResult.reset with
      dstatus := .check, check := f.code, opcode := opcode, sect := f.sect, offset := f.off, x := f.x, y := f.y }
    (logFail f s)

/-- The resident manifest that a passed VERIFY leaves (R196, R197, R362). -/
def residentOf (d : LoadDecl) (m : Bytes) : Resident :=
  { key := d.key, ownerHash := sha256 d.key, digest := d.digest, size := hdrBody m + sigSize, patches := manifestPatches m }

/-- The end of VERIFY (R199, R340). -/
def endVerify (d : LoadDecl) (s : State) : State :=
  let m := manifestBytes s d.size
  match verifyVerdict d m with
  | none =>
    finishBg (bgDone 0xC102 .ok)
      (logEvent 0x0400 0 0 0 []
        { s with resident := some (residentOf d m), decl := none, dev := { s.dev with st := .resident } })
  | some f => bgFail 0xC102 f { s with decl := none, dev := { s.dev with st := .ready } }

/-- VERIFY_DONE: state 4, or state 2 with the failed check (R199, R340). -/
def execVerifyDone (s : State) : Out :=
  .next
    (match s.mbx.bg, s.decl with
     | some .verify, some d => endVerify d s
     | _, _ => s)

/-! ## The write pass (R109, R179, R188) -/

/-- A cluster as configuration leaves it: its image, the registers of R109, and the expected sentinel digest (R179). -/
def configCluster (sent : Option W128) (img : Cluster) : Cluster :=
  let cl := loadCores (initBytes img) img
  match sent with
  | some h =>
    if sentScratch img = 0 then cl else { cl with mem := Mem.write 0 cl.mem (sentScratch img + 0x1FF0) (toLe 16 h.toNat) }
  | none => cl

/-- The expected sentinel digest of a manifest with a sentinel weir (R179). -/
def sentDigestOf (m : Bytes) : Option W128 :=
  if (weirTable m).any (fun w => w.sent) then some (BitVec.ofNat 128 (fieldB (schedHdr m) 16 16)) else none

/-- Zeros in every good cluster of some fields: nothing is written to a bad or suspect one (R188 step 1). -/
def zeroFields (pick : Nat → Bool) (s : State) : State :=
  { s with clusters := s.clusters.filter (fun e => !(pick (fieldAt e.1) && isGood s e.1)) }

/-- Write the groups of a field (R188). -/
def writeGroups (sent : Option W128) (field : Nat) (gs : List (Group × Cluster)) (s : State) : State :=
  gs.foldl (fun s g => setCluster (clusterIn field g.1.u g.1.v) (configCluster sent g.2) s) s

/-- Write a FIELD section with the patch that the fit selects (R188, R195). -/
def writeField (m : Bytes) (patches : List Bytes) (s : State) (f : FieldSect) : State :=
  match selectField s patches f with
  | some (gs, _) => writeGroups (sentDigestOf m) f.field gs s
  | none => s

/-! ## What configuration loads beside the wafer (R195, R200, R215, R217, R221, R250, R252, R260, R265) -/

/-- The PORTROLE record of a port. -/
def roleOf (m : Bytes) (p : Nat) : Option Bytes := (portRoles m).find? (fun b => fieldB b 0 1 == p)

/-- A port without a role; a DOWN port stays DOWN until its reset (R241, R250). -/
def idlePort (q : Port) : Port :=
  { linkZero q with st := if q.st = .down then .down else .off, role := 0, bundle := 0, member := 0, sealedReq := false,
                    digestTx := false, txq := [], ctlq := [] }

/-- A port under its record: IDLE is powered down, a port that was off trains, any other keeps its link (R233, R250;
log entry 44). -/
def configPort (b : Option Bytes) (q : Port) : Port :=
  match b with
  | none => idlePort q
  | some b =>
    if fieldB b 1 1 = 0 then idlePort q
    else
      let q := { q with role := fieldB b 1 1, bundle := fieldB b 2 1, member := fieldB b 3 1,
                        sealedReq := bit (fieldB b 4 1) 0, digestTx := bit (fieldB b 4 1) 1 }
      if q.st = .off then startTraining q else q

/-- The templates of a manifest's RING sections, in place of the former ones; host sluices stay (log entry 44). -/
def configSluices (m : Bytes) (t : Tab Sluice) : Tab Sluice :=
  (sectionsOf 2 m).foldl (fun t e =>
    (bodies 0x201 m e).foldl (fun t b => Tab.set Sluice.reset t (sluiceKey e.index (fieldB b 0 2)) (sluiceOf b)) t)
    (t.filter (fun e => e.2.host))

/-- A host queue at configuration: its descriptors go on, its counters start again (R265; log entry 44). -/
def clearQueue (q : Queue) : Queue :=
  { q with cleared := q.cleared + q.completions, completions := 0, entries := 0, dup := 0 }

/-- A manifest queue of before at configuration: its list is gone, its running descriptors go on to their completion (R261; log
entry 44). -/
def dropList (q : Queue) : Queue := { clearQueue q with manifest := false, descs := [], first := 0, next := 0 }

/-- A queue under its TQLIST record (R260); descriptors that still run in it go on. -/
def queueOf (first : Nat) (b : Bytes) (q : Queue) : Queue :=
  { q with manifest := true, cring := fieldB b 8 4, descs := (listDescs b).map (descOf false), first := first, next := 0 }

/-- The queues of one ring die, their lists laid one after another (R265). -/
def configDie (bs : List Bytes) (t : Tab Queue) : Tab Queue :=
  (bs.foldl (fun (x : Tab Queue × Nat) b =>
    (Tab.upd Queue.reset x.1 (fieldB b 0 2) (queueOf x.2 b), x.2 + fieldB b 4 4)) (t, 0)).1

/-- The queues of a manifest; host queues stay. -/
def configQueues (m : Bytes) (t : Tab Queue) : Tab Queue :=
  (sectionsOf 2 m).foldl (fun t e => configDie (bodies 0x202 m e) t)
    (Tab.mapVals Queue.reset (fun _ q => if q.manifest then dropList q else clearQueue q) t)

/-- An account under a QUOTA record (R215). -/
def quotaOf (b : Bytes) (x : Account) : Account :=
  { x with limit := fieldB b 8 8, hostAcc := bit (fieldB b 2 1) 0, bundle := fieldB b 16 1, base := fieldB b 24 8 }

/-- A staging or extraction list from its record (R221). -/
def stageListOf (b : Bytes) : StageList :=
  let es := (stageEnts b).map stageEntOf
  { StageList.none with
    extraction := fieldB b 1 1 == 1, startWeir := fieldB b 4 2, entries := es, total := (es.map (fun e => e.count)).foldl (· + ·) 0 }

/-- The tier engine and the stack controllers under a manifest (R215, R217, R221). The end records of the earlier manifest's
lists go, those of host lists and of lists that still execute stay (DESIGN CHOICE, log entry 103). -/
def configTier (m : Bytes) (t : Tier) : Tier :=
  { t with
    accts := (allBodies 0x300 3 m).foldl
      (fun a b => Tab.upd Account.reset a (acctKey (fieldB b 0 1) (fieldB b 1 1)) (quotaOf b)) t.accts,
    migs := (allBodies 0x301 3 m).map migListOf,
    writes := [],
    recs := t.recs.filter (fun e => 32768 ≤ e.1 || t.manQ.any (fun i => i.list == e.1)),
    stages := (allBodies 0x302 3 m).foldl (fun x b => Tab.set StageList.none x (stageListKey b) (stageListOf b)) [] }

/-- The ports that a manifest leaves IDLE and that are not off yet. -/
def idledPorts (m : Bytes) (s : State) : List Nat :=
  (List.range 24).filter (fun p =>
    ((roleOf m p).map (fun b => fieldB b 1 1)).getD 0 == 0 && (portAt s p).st != .off && (portAt s p).st != .down)

/-- Before the write pass the ports that become IDLE cut what arrives on them, and every descriptor with a tile on one
completes with LINK_DOWN (R241, R250, R261; log entry 44). -/
def idlePorts (m : Bytes) (s : State) : State :=
  (idledPorts m s).foldl (fun s p => if isSafe s then s else cutFrom p (failPort p stLinkDown s)) s

/-- The image of a configuration (R190, R195). -/
def imageOf (m : Bytes) (s : State) (patches : List Bytes) : Image :=
  let fs := fieldSects m
  { mode := hdrMode m, runBlock := runBlockAddr m, gearDiv := gearDivs m,
    sentDigest := BitVec.ofNat 128 (fieldB (schedHdr m) 16 16), weirs := weirTable m,
    parts := placedClusters s patches fs, applied := appliedPatches s patches fs }

/-- The write pass: wafer, ring dies, stack controllers, tier engine and weir controller; weir and digest records count
from here on (R188, R200, R204). -/
def writePass (r : Resident) (m : Bytes) (s : State) : State :=
  let image := imageOf m s r.patches
  let s := (fieldSects m).foldl (writeField m r.patches) (zeroFields (fun _ => true) s)
  { s with
    image := some image, gates := manifestGates m,
    weir := { WeirCtl.reset with hold := s.weir.hold, relayDis := s.weir.relayDis },
    ports := (List.range 24).foldl (fun t p => Tab.upd Port.reset t p (configPort (roleOf m p))) s.ports,
    sluices := configSluices m s.sluices, queues := configQueues m s.queues,
    rings := Tab.mapVals Ring.reset (fun _ x => { x with cnt := RingCnt.reset, extract := [] }) s.rings,
    tier := configTier m s.tier,
    logs := { s.logs with weirs := [], weirCount := 0, digests := [], digestCount := 0 },
    dev := { s.dev with st := .configured } }

/-! ## CONFIGURE (R200) -/

/-- The bytes of the resident manifest's body and signature. -/
def residentBytes (s : State) (r : Resident) : Bytes := manifestBytes s r.size

/-- CONFIGURE: the check pass begins (R200, R340). -/
def execConfigure (s : State) : Out := vendor 0xC103 false [.resident, .configured] (started .configure) s

/-- The end of CONFIGURE: the write pass, or the failed check with the wafer unchanged; a fault on the way leaves it as the
freeze finds it (R200, R201, R402). -/
def endConfigure (r : Resident) (s : State) : State :=
  let m := residentBytes s r
  match checkVerdict s r m with
  | none =>
    let s := idlePorts m s
    if isSafe s then s
    else
      finishBg (bgDone 0xC103 .ok)
        (logEvent 0x0402 0 0 0 (r.digest.take 16) (writePass r m (detachSluices (fun k => !(sluiceAt s k).host) s)))
  | some f => bgFail 0xC103 f s

/-- CONFIGURE_DONE (R200, R340). -/
def execConfigureDone (s : State) : Out :=
  .next
    (match s.mbx.bg, s.resident with
     | some .configure, some r => endConfigure r s
     | _, _ => s)

/-! ## RELIEF (R196, R341) -/

/-- The partial patch after a chunk: its bytes so far; none when the chunk leaves a gap or passes TOTAL (R341). -/
def takeChunk (part : Option (Nat × Bytes)) (pl : Bytes) : Option (Nat × Bytes) :=
  let off := fieldB pl 0 4
  let total := fieldB pl 4 4
  let data := pl.drop 8
  let before := if off = 0 then some [] else part.bind (fun p => if p.1 = total ∧ p.2.length = off then some p.2 else none)
  before.bind (fun b => if off + data.length ≤ total then some (total, b ++ data) else none)

/-- RELIEF: one chunk of a patch; the last starts R196 in the background (R340, R341). -/
def execRelief (pl : Bytes) (s : State) : Out :=
  vendor 0xC104 false [.resident, .configured] (fun s =>
    match takeChunk s.mbx.partPatch pl with
    | none => reply .range [] { s with mbx := { s.mbx with partPatch := none } }
    | some (total, b) =>
      if b.length = total then started (.relief b) { s with mbx := { s.mbx with partPatch := none } }
      else reply .ok [] { s with mbx := { s.mbx with partPatch := some (total, b) } }) s

/-- Total size of a manifest with its patches (R183, R196). -/
def totalSize (r : Resident) (ps : List Bytes) : Nat := r.size + 16 + (ps.map (fun p => p.length)).foldl (· + ·) 0

/-- Retire one FAILED cluster: suspect when it is still good, and logged (R196 step 4). -/
def retire (field : Nat) (s : State) (x : Nat × Nat) : State :=
  let c := clusterIn field x.1 x.2
  if isGood s c then logEvent 0x0404 0 atCluster c (toLe 4 c) (suspect c s) else s

/-- The checks of a relief patch on the resident manifest (R194, R196): framing, content, room, and when configured the
fit once its FAILED clusters are retired. -/
def reliefCheck (s : State) (r : Resident) (m p : Bytes) : Verdict :=
  let fs := fieldSects m
  let ps := storePatch r.patches p
  let start := patchStart { r with patches := ps } p
  let bad (b : Bool) (code : Nat) : Verdict := failIf b code noSect start
  firstFail
    [bad (patchStep1 r.key r.digest p == false) 0x0009,
     patchVerdict m fs start p,
     bad (decide (1024 < ps.length) || decide (maxManifest < totalSize r ps)) 0x0009,
     if s.dev.st = .configured then
       (match sectOf fs (patchField p) with
        | some f =>
          firstFail
            [failOver (fun x : Nat × Nat =>
               failAt { sect := noSect, off := start, x := (fieldOrigin f.field).1 + x.1, y := (fieldOrigin f.field).2 + x.2,
                        stores := [] } ((patchFailed p).contains x == false) 0x0008) (notGood s f),
             (fitVerdict ((patchFailed p).foldl (retire f.field) s) { r with patches := ps } f).map (CheckFail.inRelief r.size)]
        | none => none)
     else none]

/-- Steps 4 and 5 of R196: the FAILED clusters are retired and the field is written again with its patch. -/
def reliefWrite (r : Resident) (m p : Bytes) (s : State) : State :=
  match sectOf (fieldSects m) (patchField p), s.image with
  | some f, some i =>
    let s := (patchFailed p).foldl (retire f.field) s
    let s := writeField m r.patches (zeroFields (· == f.field) s) f
    { s with image := some { i with
        parts := i.parts.filter (fun c => fieldAt c != f.field) ++ placedClusters s r.patches [f],
        applied := i.applied.filter (fun a => a.1 != f.field) ++ appliedPatches s r.patches [f] } }
  | _, _ => s

/-- The end of RELIEF (R196). -/
def endRelief (r : Resident) (p : Bytes) (s : State) : State :=
  let m := residentBytes s r
  match reliefCheck s r m p with
  | some f => bgFail 0xC104 f s
  | none =>
    let r := { r with patches := storePatch r.patches p }
    let s := { s with resident := some r }
    finishBg (bgDone 0xC104 .ok)
      (if s.dev.st = .configured then logEvent 0x0403 0 atField (patchField p) (toLe 1 (patchField p)) (reliefWrite r m p s) else s)

/-- RELIEF_DONE (R196, R340). -/
def execReliefDone (s : State) : Out :=
  .next
    (match s.mbx.bg, s.resident with
     | some (.relief p), some r => endRelief r p s
     | _, _ => s)

end Sys2Proof.Machine
end

