-- ==== Sys2Proof/Machine/HallTime.lean ====
section
/-! DEFINITION. The hall reference and hall time (R372, R376 to R379), and the cables of the ports (R426). -/

namespace Sys2Proof.Machine

/-! ## The hall reference (R372) -/

/-- HALL_REFERENCE_CHANGE: the cleaner locks to a reference within tolerance, and to none outside it; no clock moves
(R372). -/
def execHallReferenceChange (present inTolerance : Bool) (s : State) : Out :=
  .next
    (let ok := present && inTolerance
     { s with
       power := { s.power with hallRefOk := ok, hallRefBad := present && !inTolerance },
       hall := { s.hall with ref10 := s.power.on && ok } })

/-! ## HTIME frames (R376 to R379) -/

/-- NS of a frame (R376). -/
def htimeNs (x : Nat) : Nat := bits x 71 8
/-- FLAGS of a frame (R376). -/
def htimeFlags (x : Nat) : Nat := bits x 87 72

/-- A frame keeps its code, its CRC and its reserved flags (R376, R377). -/
def htimeIntact (x : Nat) (codeOk : Bool) : Bool :=
  codeOk && decide (htimeFlags x < 4) &&
    (crc8 (toLe 8 (htimeNs x) ++ toLe 2 (htimeFlags x))).toNat == bits x 95 88

/-- A value held within bounds. -/
def clampInt (x lo hi : Int) : Int := max lo (min hi x)

/-- The counter is disciplined by an error `e` in 2^-32 ns: it steps with the next module-reference cycle, so that a read in
the cycle of the frame edge returns the value before, or it slews over the next 1,000 cycles with a frequency term (R378,
R380). -/
def discipline (e : Int) (run : Bool) (h : Hall) : Hall :=
  let wide := decide (10000 * 2 ^ 32 < e.natAbs)
  if h.frames = 0 ∨ (wide = true ∧ run = false) then
    { h with step := h.step + e, slew := 0, slewLeft := 0 }
  else
    { h with slew := clampInt (e / 16) (-(2 ^ 32)) (2 ^ 32) / 1000, slewLeft := 84000, rate := h.rate + e / 4096 / 1000 }

/-- LOCK after a valid frame with error `e` (R379). -/
def judgeLock (e : Int) (h : Hall) : Hall :=
  let near := decide (e.natAbs ≤ 25 * 2 ^ 32)
  let good := if near then h.good + 1 else 0
  let bad := if near then 0 else h.bad + 1
  { h with good := good, bad := bad, lock := (h.lock && decide (bad < 4)) || (h.offsetSet && decide (32 ≤ good)) }

/-- A valid frame takes effect (R377 to R379). -/
def takeFrame (ns : Nat) (run : Bool) (h : Hall) : Hall :=
  let e : Int := (ns + h.offset) * 2 ^ 32 - (h.ns + h.step)
  let h := judgeLock e (discipline e run h)
  { h with lastErr := e / 2 ^ 32, frames := h.frames + 1 }

/-- HTIME_FRAME: a frame is counted as an error, ignored, or disciplines the counter (R377, R378; log entry 46). -/
def execHtimeFrame (x : BitVec 96) (codeOk : Bool) (s : State) : Out :=
  .next
    (if !s.power.on || bits x.toNat 7 0 != 0xD5 then s
     else if !htimeIntact x.toNat codeOk then { s with hall := { s.hall with frameErr := min 65535 (s.hall.frameErr + 1) } }
     else if !bit (htimeFlags x.toNat) 0 then s
     else { s with hall := takeFrame (htimeNs x.toNat) (s.dev.st == .running) s.hall })

/-- HTIME_TIMEOUT: no valid frame for 100 µs (R379; log entry 46). -/
def execHtimeTimeout (s : State) : Out :=
  .next (if s.power.on then { s with hall := { s.hall with lock := false, good := 0 } } else s)

/-! ## Cables (R426) -/

/-- A port's cage holds a module or not (R425). -/
def setCage (p : Nat) (present : Bool) (s : State) : State :=
  { s with power := { s.power with
      emptyCages := if present then s.power.emptyCages.erase p else insertNat p s.power.emptyCages } }

/-- Whether the ring die holds the module of a port's cage in reset and low power: while the role is IDLE, and released before
link-up (R233, R425). -/
def cageHeld (q : Port) : Bool := q.role == 0

/-- What a ring die reads of a cage: no module, one held in low power, or one that is ready (R425; log entry 101). -/
inductive CageState where
  | empty | lowPower | ready
deriving DecidableEq, Repr

/-- The module state that a ring die reads in a port's cage (R425). -/
def cageState (s : State) (p : Nat) : CageState :=
  if s.power.emptyCages.contains p then .empty else if cageHeld (portAt s p) then .lowPower else .ready

/-- CABLE_INSERT: the cage shows its module, and nothing else happens until PORT_RESET (R425, R426). -/
def execCableInsert (p : Nat) (s : State) : Out := onPlace (decide (p < 24)) (setCage p true s)

/-- A port without its cable is replayed, up to `n` times, until it retrains (R240, R241). -/
def replays : Nat → Nat → State → State
  | 0, _, s => s
  | n + 1, p, s => if streams (portAt s p) then replays n p (countReplay p s) else s

/-- CABLE_REMOVAL: no fault; the cage is empty, and the port passes through replay to retrain, from where PORT_DOWN takes it
(R426; log entry 47). -/
def execCableRemoval (p : Nat) (s : State) : Out :=
  onPlace (decide (p < 24))
    (let s := setCage p false s
     if (portAt s p).role = 0 then s else replays 9 p s)

end Sys2Proof.Machine
end

