-- ==== Sys2Proof/WellFormed.lean ====
section
/-! DEFINITION. Well-formed commands: every place a command names exists in the engine. The spec gives the commands
no encoding, so nothing else about a command's syntax can be ill formed; fields that an instruction may hold but
that are reserved encodings are the machine's business (R111). -/

namespace Sys2Proof

open Sys2Proof.Machine

/-- Whether a sensor exists (R386): 752 junctions as eight per field, 16 stacks, 12 ring dies, the hub, 94 field
supplies, four coolant sensors. -/
def Sensor.wf : Sensor → Bool
  | .junction f i => decide (f < 94) && decide (i < 8)
  | .stack n => decide (n < 16)
  | .ringDie k => decide (k < 12)
  | .hub => true
  | .supply f => decide (f < 94)
  | .coolant i => decide (i < 4)

/-- Whether a guarded unit exists (R22). -/
def Guarded.wf : Guarded → Bool
  | .clusterMemory c => isCluster c
  | .router c => isCluster c
  | .scoreboard c => isCluster c
  | .sluices d => decide (d < 12)
  | .queues d => decide (d < 12)
  | .credits p => decide (p < 24)
  | .stack n => decide (n < 16)
  | .weirNet => true
  | .quota => true
  | .hub => true

/-- Whether what is silent or broken exists. -/
def Mute.wf : Mute → Bool
  | .sensor k => k.wf
  | .detector u => u.wf

/-- Whether a vector core of a cluster exists (R22, R25). -/
def vecWf (c v : Nat) : Bool := isCluster c && decide (v < 6)

/-- Whether every place that a command names exists. -/
def Instr.wf (i : Instr) : Bool :=
  match i with
  | .coldStart _ => true
  | .powerDown => true
  | .feedLoss _ _ => true
  | .feedConnect _ _ => true
  | .feedOvervoltage _ _ => true
  | .feedUndervoltage _ _ => true
  | .powerRemoval _ _ => true
  | .flashPgmN _ _ _ => true
  | .hallReferenceChange _ _ => true
  | .htimeFrame _ _ => true
  | .htimeTimeout => true
  | .sensorSample rs => rs.all (fun r => r.sensor.wf)
  | .sensorSilent k => k.wf
  | .supplyFault field _ => decide (field < 94)
  | .watchdog => true
  | .cableInsert p => decide (p < 24)
  | .cableRemoval p => decide (p < 24)
  | .perstNRelease _ => true
  | .hotReset => true
  | .functionLevelReset => true
  | .hostLinkLoss => true
  | .hdmCommit _ _ => true
  | .spdmMessage _ => true
  | .hdmRead _ _ => true
  | .hdmWrite _ _ => true
  | .hold _ => true
  | .relayDis _ => true
  | .gearReqClear _ => true
  | .gearDropClear _ => true
  | .frameErrRead => true
  | .regWrite _ _ => true
  | .identify => true
  | .backgroundOperationStatus => true
  | .getEventRecords => true
  | .clearEventRecords => true
  | .getTimestamp => true
  | .setTimestamp _ => true
  | .getSupportedLogs => true
  | .getLog _ _ => true
  | .identifyMemoryDevice => true
  | .unsupported _ => true
  | .mapRead => true
  | .load _ => true
  | .verify => true
  | .verifyDone => true
  | .configure => true
  | .configureDone => true
  | .relief _ => true
  | .reliefDone => true
  | .run _ => true
  | .weirRelease _ => true
  | .freeze => true
  | .warmStart _ => true
  | .contWarm => true
  | .warmStartDone _ => true
  | .readback _ => true
  | .readbackDone => true
  | .attest _ => true
  | .attestDone => true
  | .setIdentity _ => true
  | .lend _ => true
  | .endLend => true
  | .scrubComplete => true
  | .shadowGuard _ => true
  | .setQuota _ => true
  | .migPost _ => true
  | .migStatus _ => true
  | .tqPost _ => true
  | .sluiceOpen _ => true
  | .sluiceClose _ => true
  | .keyLoad _ => true
  | .portReset _ => true
  | .timeOffsetSet _ => true
  | .logRead _ => true
  | .bgResult => true
  | .alu c _ _ _ _ _ => isCluster c
  | .addi c _ _ _ _ => isCluster c
  | .andi c _ _ _ _ => isCluster c
  | .ori c _ _ _ _ => isCluster c
  | .xori c _ _ _ _ => isCluster c
  | .shi c _ _ _ _ => isCluster c
  | .movk c _ _ _ _ => isCluster c
  | .beq c _ _ _ _ => isCluster c
  | .bne c _ _ _ _ => isCluster c
  | .blt c _ _ _ _ => isCluster c
  | .bge c _ _ _ _ => isCluster c
  | .bltu c _ _ _ _ => isCluster c
  | .bgeu c _ _ _ _ => isCluster c
  | .jmp c _ _ => isCluster c
  | .call c _ _ => isCluster c
  | .ret c _ => isCluster c
  | .loop c _ _ _ => isCluster c
  | .wait c _ _ => isCluster c
  | .waitr c _ _ => isCluster c
  | .mop c _ _ _ _ => isCluster c
  | .vstart c _ _ => isCluster c
  | .s1start c _ => isCluster c
  | .weir c _ _ _ => isCluster c
  | .stop c => isCluster c
  | .lda c _ _ _ _ _ _ => isCluster c
  | .stn c _ _ _ _ => isCluster c
  | .aop c _ _ _ _ => isCluster c
  | .mova c _ _ => isCluster c
  | .tload c _ _ _ _ => isCluster c
  | .gload c _ _ _ => isCluster c
  | .s1End c => isCluster c
  | .fadd c v _ _ _ _ => vecWf c v
  | .fsub c v _ _ _ _ => vecWf c v
  | .fmul c v _ _ _ _ => vecWf c v
  | .fma c v _ _ _ _ _ => vecWf c v
  | .fms c v _ _ _ _ _ => vecWf c v
  | .fnma c v _ _ _ _ _ => vecWf c v
  | .fnms c v _ _ _ _ _ => vecWf c v
  | .fmin c v _ _ _ _ => vecWf c v
  | .fmax c v _ _ _ _ => vecWf c v
  | .fabs c v _ _ _ => vecWf c v
  | .fneg c v _ _ _ => vecWf c v
  | .fcmp c v _ _ _ _ _ => vecWf c v
  | .sel c v _ _ _ _ _ => vecWf c v
  | .iadd c v _ _ _ _ => vecWf c v
  | .isub c v _ _ _ _ => vecWf c v
  | .iand c v _ _ _ _ => vecWf c v
  | .ior c v _ _ _ _ => vecWf c v
  | .ixor c v _ _ _ _ => vecWf c v
  | .ishl c v _ _ _ _ => vecWf c v
  | .ishr c v _ _ _ _ => vecWf c v
  | .isar c v _ _ _ _ => vecWf c v
  | .icmp c v _ _ _ _ _ => vecWf c v
  | .wadd c v _ _ _ _ => vecWf c v
  | .wsub c v _ _ _ _ => vecWf c v
  | .bcast c v _ _ _ _ => vecWf c v
  | .perm c v _ _ _ _ => vecWf c v
  | .unpk c v _ _ _ _ => vecWf c v
  | .rsum c v _ _ _ => vecWf c v
  | .rmin c v _ _ _ => vecWf c v
  | .rmax c v _ _ _ => vecWf c v
  | .teval c v _ _ _ _ => vecWf c v
  | .tgrad c v _ _ _ _ _ => vecWf c v
  | .cvt c v _ _ _ _ _ _ => vecWf c v
  | .cvtmx c v _ _ _ _ _ _ => vecWf c v
  | .cvtxf c v _ _ _ _ _ => vecWf c v
  | .cvtg c v _ _ _ _ => vecWf c v
  | .cvts c v _ _ _ => vecWf c v
  | .cvtsf c v _ _ _ => vecWf c v
  | .scnt c v _ _ _ _ _ _ => vecWf c v
  | .dbegin c v _ => vecWf c v
  | .dfold c v _ => vecWf c v
  | .dfoldt c v _ _ => vecWf c v
  | .dend c v => vecWf c v
  | .dread c v _ => vecWf c v
  | .dclr c v => vecWf c v
  | .gst c v _ => vecWf c v
  | .gdraw c v _ _ _ => vecWf c v
  | .gdrawi c v _ _ _ => vecWf c v
  | .ld c v _ _ _ => vecWf c v
  | .st c v _ _ => vecWf c v
  | .pop c v _ _ _ => vecWf c v
  | .push c v _ => vecWf c v
  | .li c v _ _ _ => vecWf c v
  | .rep c v _ _ => vecWf c v
  | .vectorEnd c v => vecWf c v
  | .flit c _ _ => isCluster c
  | .landingWrite c => isCluster c
  | .gateInject g => gateExists g
  | .gateExtract g => gateExists g
  | .arrive c _ => isCluster c
  | .landed c _ => isCluster c
  | .conditionLatch _ _ => true
  | .release => true
  | .sluiceDrained d i => decide (d < 12) && decide (i < 32768)
  | .resume => true
  | .sentinelRoutine c _ => isCluster c
  | .relayEligible => true
  | .relayChoice => true
  | .digestRead _ => true
  | .weirDeadline => true
  | .runEnd => true
  | .pcsLock p => decide (p < 24)
  | .linkInit p _ => decide (p < 24)
  | .portFlit p _ _ => decide (p < 24)
  | .replayTimeout p ch => decide (p < 24) && decide (ch < 9)
  | .retrainComplete p => decide (p < 24)
  | .portDown p => decide (p < 24)
  | .auditSend p lane => decide (p < 24) && decide (lane < 8)
  | .audit p _ => decide (p < 24)
  | .cease p _ => decide (p < 24)
  | .marker p _ => decide (p < 24)
  | .digest p _ => decide (p < 24)
  | .commitAck p _ => decide (p < 24)
  | .tile p vl _ => decide (p < 24) && decide (vl < 8)
  | .landingBufferReserve d => decide (d < 12)
  | .shardReq p vl _ => decide (p < 24) && decide (vl < 8)
  | .homeRead p vl _ => decide (p < 24) && decide (vl < 8)
  | .homeWrite p vl _ => decide (p < 24) && decide (vl < 8)
  | .homeData p vl _ => decide (p < 24) && decide (vl < 8)
  | .shardCheck d => decide (d < 12)
  | .descriptorStart q => decide (q < 24576)
  | .descriptorComplete q _ => decide (q < 24576)
  | .timeout q _ => decide (q < 24576)
  | .fetch _ _ => true
  | .evict _ _ => true
  | .writeback _ _ => true
  | .drop _ => true
  | .alloc _ => true
  | .move _ => true
  | .bind _ => true
  | .unbind _ => true
  | .stagingRead stack _ => decide (stack < 16)
  | .store stack _ => decide (stack < 16)
  | .addF32 stack _ => decide (stack < 16)
  | .addI64 stack _ => decide (stack < 16)
  | .busOrHubSupplyFault => true
  | .thermalHistoryRecord => true

end Sys2Proof
end

