-- ==== Sys2Proof/Machine/Power.lean ====
section
/-! DEFINITION. Feeds, supplies, sensors and trips (R371, R372, R381 to R393, R395, R423, R429, R430). -/

namespace Sys2Proof.Machine

/-! ## Feeds (R381, R382, R393) -/

/-- A feed. -/
def feedOf (f : Feed) (s : State) : FeedReg :=
  match f with
  | .a => s.power.feedA
  | .b => s.power.feedB

/-- Put a feed back. -/
def setFeed (f : Feed) (r : FeedReg) (s : State) : State :=
  match f with
  | .a => { s with power := { s.power with feedA := r } }
  | .b => { s with power := { s.power with feedB := r } }

/-- The other feed. -/
def otherFeed : Feed → Feed
  | .a => .b
  | .b => .a

/-- State of a feed at a voltage: in range, or disconnected above 60.0 V, or absent (R381, R382). -/
def feedStateAt (mv : Nat) : FeedState :=
  if 50000 ≤ mv ∧ mv ≤ 59500 then .inRange else if 60000 < mv then .disconnected else .absent

/-- Whether the stacks are in self-refresh, which keeps their contents and which a readback leaves for its reads: in the safe
state, and while the engine holds no manifest and no lender session (R205, R208, R399). -/
def selfRefresh (s : State) : Bool := isSafe s || (s.resident.isNone && s.tier.lend.isNone)

/-- Input power in W by activity (R385): what the table states for the activity, below its maximum during a run, and a free
value where it states none (log entry 102). -/
def inputPower (s : State) : Nat × State :=
  if s.power.on = false then (0, s)
  else if isSafe s then (2400, s)
  else
    match s.dev.st with
    | .running => let (w, s) := freeVal 16 s; (w.toNat % 24001, s)
    | .configured => (3100, s)
    | .lender => (2900, s)
    | _ =>
      if selfRefresh s && s.dev.st == .ready then (2100, s)
      else let (w, s) := freeVal 16 s; (w.toNat % 24001, s)

/-- What feed A carries of a load of 1,000, by the two feeds (R381): within 1.0 V of each other they share it within ±10 %, else
the higher feed carries more, and one alone carries all. Where in these ranges is a free value `x`. -/
def shareOf (a b : FeedReg) (x : Nat) : Nat :=
  if b.st ≠ .inRange then 1000
  else if a.st ≠ .inRange then 0
  else if a.mv ≤ b.mv + 1000 ∧ b.mv ≤ a.mv + 1000 then 450 + x % 101
  else if b.mv < a.mv then 501 + x % 500
  else x % 500

/-- A feed that carries some watts: its power, and its current at its voltage; none when it is out of range (R393). -/
def loadedFeed (w : Nat) (r : FeedReg) : FeedReg :=
  if r.st = .inRange then { r with watts := w, ma := w * 1000000 / r.mv } else { r with watts := 0, ma := 0 }

/-- The load divides between the feeds (R381, R385, R393). -/
def settleLoad (s : State) : State :=
  let (w, s) := inputPower s
  let (x, s) := freeVal 16 s
  let a := w * shareOf s.power.feedA s.power.feedB x.toNat / 1000
  { s with power := { s.power with
      feedA := loadedFeed a s.power.feedA, feedB := loadedFeed (w - a) s.power.feedB } }

/-- Voltage with which a feed can power the module: a disconnected feed counts as absent (R382). -/
def feedMv (r : FeedReg) : Nat := if r.st = .disconnected then 0 else r.mv

/-- A feed has a new voltage. -/
def feedAt (f : Feed) (mv : Nat) (s : State) : State := settleLoad (setFeed f { feedOf f s with mv := mv, st := feedStateAt mv } s)

/-- Whether both feeds lie below a voltage, a disconnected one among them (R382). -/
def bothBelow (mv : Nat) (s : State) : Bool := decide (feedMv s.power.feedA < mv) && decide (feedMv s.power.feedB < mv)

/-- Below 45.0 V on both feeds the board controller removes all power (R382). -/
def checkFeeds (s : State) : State := if s.power.on && bothBelow 45000 s then powerOff s else s

/-- A feed leaves its range: the other takes the load, with event 0x0502, or power is gone (R381, R382). -/
def loseFeed (f : Feed) (mv : Nat) (s : State) : State :=
  let t := feedAt f mv s
  if s.power.on && (feedOf f s).st == .inRange && (feedOf (otherFeed f) s).st == .inRange then
    logEvent 0x0502 0 0 0 [if f = .a then 0 else 1] t
  else checkFeeds t

/-- FEED_LOSS: a feed leaves its range (R381). -/
def execFeedLoss (f : Feed) (mv : Nat) (s : State) : Out :=
  .next (if feedStateAt mv = .inRange then s else loseFeed f mv s)

/-- FEED_CONNECT: a feed is connected; within its range it shares the load (R381, R423). -/
def execFeedConnect (f : Feed) (mv : Nat) (s : State) : Out := .next (feedAt f mv s)

/-- FEED_OVERVOLTAGE: a feed above 60.0 V is disconnected and treated as absent (R382). -/
def execFeedOvervoltage (f : Feed) (mv : Nat) (s : State) : Out :=
  .next (if 60000 < mv then loseFeed f mv s else s)

/-- FEED_UNDERVOLTAGE: both feeds below 50.0 V for 1 ms are a supply fault of the hub; a feed disconnected above 60.0 V counts as
absent (R382). -/
def execFeedUndervoltage (mvA mvB : Nat) (s : State) : Out :=
  .next
    (let t := feedAt .b mvB (feedAt .a mvA s)
     if bothBelow 50000 t then
       checkFeeds (if t.power.on then fatal { cause := cSupplyFault, place := atHub, loc := 0, detail := 0 } t else t)
     else s)

/-- POWER_REMOVAL: both feeds below 45.0 V (R382). -/
def execPowerRemoval (mvA mvB : Nat) (s : State) : Out :=
  .next (let t := feedAt .b mvB (feedAt .a mvA s); if bothBelow 45000 t then checkFeeds t else s)

/-- POWER_DOWN: PWR_EN is deasserted, and the module powers down, whatever its state (R383, R430). -/
def execPowerDown (s : State) : Out :=
  .next (powerOff { s with power := { s.power with pwrEn := false, held := false } })

/-- BUS_OR_HUB_SUPPLY_FAULT: power is removed from the whole module, with no safe state (R389). -/
def execBusOrHubSupplyFault (s : State) : Out := .next (if s.power.on then powerOff s else s)

/-! ## Supplies and trips (R388 to R391) -/

/-- A field's supply turns off: its clusters, and what is on the way to them, are lost (R388 to R390). -/
def fieldOff (how : SupplyState) (s : State) (f : Nat) : State :=
  { s with
    heat := { s.heat with
      fields := Tab.upd FieldReg.reset s.heat.fields f (fun r => { r with supply := how, pll := false, mv := 0, ma := 0 }) },
    clusters := s.clusters.filter (fun e => fieldAt e.1 != f),
    wires := s.wires.filter (fun x => fieldAt x.dst != f) }

/-- Whether a field's supply is on. -/
def supplyIsOn (s : State) (f : Nat) : Bool := (Tab.get FieldReg.reset s.heat.fields f).supply == .on

/-- The fault of a field that trips. -/
def fieldFault (cause f : Nat) : FaultRec := { cause := cause, place := atField, loc := f, detail := 0 }

/-- Raise the faults of one sample together, in ascending code order (R368, R391, R397). -/
def fatals (fs : List FaultRec) (s : State) : State :=
  match fs, s.dev.st with
  | [], _ => s
  | _, .coldStart => s
  | _, .startFailed => s
  | fs, .safe => (byCause fs).foldl (fun s f => noteFault f s) s
  | fs, .running => endLc fs s
  | f :: fs, _ => enterWith f fs s

/-- SUPPLY_FAULT: a field supply at its current limit, out of regulation or overheated trips (R389). -/
def execSupplyFault (field : Nat) (how : SupplyHow) (s : State) : Out :=
  onPlace (decide (field < 94))
    (match how with
     | .overCurrent | .outOfRegulation | .overheat =>
       if s.power.on && supplyIsOn s field then fieldOff .supplyFault (fatal (fieldFault cSupplyFault field) s) field else s)

/-- WATCHDOG: the steward does not service its watchdog within 10 ms (R395). -/
def execWatchdog (s : State) : Out :=
  .next (if s.power.on then fatal { cause := cHubInternal, place := atHub, loc := 0, detail := 0 } s else s)

/-! ## Sensors (R386, R387, R395) -/

/-- Trip threshold of a sensor in 0.25 °C (R386). -/
def tripAt : Sensor → Option Int
  | .junction _ _ => some 432
  | .stack _ => some 420
  | .ringDie _ => some 420
  | .hub => some 420
  | .supply _ => some 440
  | .coolant _ => none

/-- Request threshold of a sensor (R386). -/
def requestAt : Sensor → Option Int
  | .junction _ _ => some 360
  | .stack _ => some 380
  | _ => none

/-- Drop threshold of a sensor (R386). -/
def dropAt : Sensor → Option Int
  | .junction _ _ => some 400
  | .stack _ => some 400
  | _ => none

/-- Whether a reading is at or above a threshold. -/
def reachesAt (t : Option Int) (q : Int) : Bool :=
  match t with
  | some t => decide (t ≤ q)
  | none => false

/-- A reading as it counts: outside −20 °C to 150 °C it is at its trip threshold (R395). -/
def effective (r : Reading) : Reading :=
  match tripAt r.sensor with
  | some t => if r.quarter < -80 ∨ 600 < r.quarter then { r with quarter := t } else r
  | none => r

/-- Every sensor has read below 85 °C, or below 90 °C for stacks (R387). -/
def allCool (s : State) : Bool :=
  s.heat.sensors.all (fun e => decide (e.2 < (if 752 ≤ e.1 ∧ e.1 < 768 then 360 else 340)))

/-- The field that an event about a sensor names (R367; log entry 50). -/
def sensorField : Sensor → Nat
  | .junction f _ => f
  | .stack n => stackFields.getD n 0
  | _ => 0

/-- A reading's thermal request (R387). -/
def requestGear (s : State) (r : Reading) : State :=
  if s.heat.armed && reachesAt (requestAt r.sensor) r.quarter then
    raiseMsix 2
      (logEvent 0x0500 0 atField (sensorField r.sensor)
        (toLe 1 (sensorField r.sensor) ++ toLe 1 (degrees r.quarter) ++ toLe 1 s.weir.gear)
        { s with heat := { s.heat with req := true, armed := false } })
  else s

/-- The fault that a reading raises, and the field that loses its supply (R388; log entry 50: a place that stays at its
threshold raises no second fault in the safe state). -/
def tripOf (s : State) (r : Reading) : Option (FaultRec × Option (Nat × SupplyState)) :=
  if !reachesAt (tripAt r.sensor) r.quarter then none
  else
    let again := s.dev.st == .safe && reachesAt (tripAt r.sensor) (quarterAt s r.sensor)
    match r.sensor with
    | .junction f _ => if supplyIsOn s f then some (fieldFault cThermalTrip f, some (f, .thermalTrip)) else none
    | .supply f => if supplyIsOn s f then some (fieldFault cSupplyFault f, some (f, .supplyFault)) else none
    | .stack n => if again then none else some ({ cause := cThermalTrip, place := atStack, loc := n, detail := 0 }, none)
    | .ringDie k => if again then none else some ({ cause := cThermalTrip, place := atRing, loc := k, detail := 0 }, none)
    | .hub => if again then none else some ({ cause := cThermalTrip, place := atHub, loc := 0, detail := 0 }, none)
    | .coolant _ => none

/-- A sample of sensors takes effect (R386 to R388, R391); its faults, whose codes are the lower ones, are logged before its
requests (R368). -/
def sample (rs : List Reading) (s : State) : State :=
  let rs := rs.map effective
  let trips := (rs.filterMap (tripOf s)).eraseDups
  let s := { s with heat := { s.heat with
    sensors := rs.foldl (fun (t : Tab Int) (r : Reading) => Tab.set 0 t (sensorNumber r.sensor) r.quarter) s.heat.sensors } }
  let s := { s with heat := { s.heat with
    armed := s.heat.armed || allCool s, hot := s.heat.hot || rs.any (fun r => reachesAt (dropAt r.sensor) r.quarter) } }
  let s := rs.foldl requestGear (fatals (trips.map Prod.fst) s)
  trips.foldl (fun s x => match x.2 with | some (f, how) => fieldOff how s f | none => s) s

/-- SENSOR_SAMPLE: a 100 µs sample (R386 to R388). -/
def execSensorSample (rs : List Reading) (s : State) : Out :=
  onPlace (rs.all (fun r => r.sensor.wf)) (if s.power.on then sample rs s else s)

/-- The fatal fault of the unit that a broken detector or checker guards (R335, R395; log entry 100). -/
def guardFault : Guarded → FaultRec
  | .clusterMemory c => clusterFault cEccUncorr c 0
  | .router c => clusterFault cMeshLink c 0
  | .scoreboard c => clusterFault cScoreboard c 0
  | .weirNet => weirFault cWeirToken 0
  | .sluices d => ringFault cSluiceAudit d 0
  | .queues d => ringFault cTqError d 0
  | .credits p => portFault cCreditAudit p 0
  | .stack n => stackFault cEccUncorr n 0
  | .quota => { cause := cTierAudit, place := atTier, loc := 0, detail := 0 }
  | .hub => { cause := cHubInternal, place := atHub, loc := 0, detail := 0 }

/-- SENSOR_SILENT: a sensor without a reading for 1 ms counts as at its trip threshold, and a detector or checker with an
internal parity error raises the fatal fault of the unit it guards (R395). -/
def execSensorSilent (m : Mute) (s : State) : Out :=
  onPlace m.wf
    (if s.power.on then
       match m with
       | .sensor k =>
         (match tripAt k with
          | some t => sample [{ sensor := k, quarter := t }] s
          | none => s)
       | .detector u => fatal (guardFault u) s
     else s)

/-- The thermal-history record of now (R393). -/
def historyRecord (s : State) : Bytes :=
  toLe 8 (nowNs s) ++ toLe 1 s.weir.gear ++ zeros 7 ++
    (List.range 94).map (fun f => BitVec.ofNat 8 (degrees (fieldQuarter s f))) ++
    (List.range 16).map (fun n => BitVec.ofNat 8 (degrees (quarterAt s (.stack n)))) ++
    (List.range 12).map (fun k => BitVec.ofNat 8 (degrees (quarterAt s (.ringDie k)))) ++ zeros 6

/-- THERMAL_HISTORY_RECORD: once per second since cold start (R393). -/
def execThermalHistoryRecord (s : State) : Out :=
  .next
    (if s.power.on then
       { s with heat := { s.heat with
         history := Tab.set [] s.heat.history (s.heat.histCount % 3600) (historyRecord s), histCount := s.heat.histCount + 1 } }
     else s)

end Sys2Proof.Machine
end

