-- ==== Sys2Proof/Machine/Regs.lean ====
section
/-! DEFINITION. The Damust register block as the host reads it, and the register accesses (R10, R230, R265, R328 to R336,
R167). A register that the host writes with an effect of its own has commands of its own; `regWrite` names an offset from
BAR0. -/

namespace Sys2Proof.Machine

/-! ## Register values -/

/-- Code of DEV_STATUS.STATE (R331). -/
def stateCode : DevState → Nat
  | .coldStart => 0
  | .startFailed => 1
  | .ready => 2
  | .loadOpen => 3
  | .resident => 4
  | .configured => 5
  | .running => 6
  | .safe => 7
  | .lender => 8
  | .scrubbing => 9
  | .warmStart => 10
  | .salvage => 11

/-- DEV_INFO (R330). -/
def devInfo (s : State) : Nat := Config.romLevel.toNat * 2 ^ 48 + s.dev.grade.toNat * 2 ^ 40 + goodCount s

/-- DEV_STATUS (R331). -/
def devStatus (s : State) : Nat :=
  stateCode s.dev.st * 2 ^ 28 + s.dev.startStep * 2 ^ 24 + b2n s.dev.ident * 2 ^ 23 + b2n s.cxl.ide * 2 ^ 22 +
    b2n s.dev.guard * 2 ^ 21 + b2n s.mbx.bg.isSome * 2 ^ 20 + s.dev.startCause.toNat

/-- MBX_LOAD (R332). -/
def mbxLoad (s : State) : Nat := b2n s.dev.loadOpen * 2 ^ 63 + s.dev.loadSize

/-- TIME_STATUS (R333). -/
def timeStatus (s : State) : Nat :=
  b2n s.hall.lock * 2 ^ 31 + b2n s.hall.offsetSet * 2 ^ 30 + b2n s.hall.ref10 * 2 ^ 29 + s.hall.frameErr

/-- TIME_OFFSET (R333). -/
def timeOffset (s : State) : Nat := (BitVec.ofInt 32 s.hall.offset).toNat

/-- GEAR_STATUS (R334). -/
def gearStatus (s : State) : Nat :=
  degrees (fieldQuarter s (hottestField s)) * 2 ^ 24 + hottestField s * 2 ^ 16 + b2n s.heat.req * 128 + b2n s.heat.drop * 64 +
    s.weir.gear * 16

/-- SAFE_STATUS (R335). -/
def safeStatus (s : State) : Nat :=
  b2n s.safe.safe * 2 ^ 63 + s.safe.cause.toNat * 2 ^ 48 + s.safe.place.toNat * 2 ^ 44 + s.safe.loc.toNat

/-- Code of WEIR_STATUS.STATE (R167). -/
def phaseCode : WPhase → Nat
  | .noRun => 0
  | .beforeDue => 1
  | .held => 2
  | .released => 3
  | .expired => 4

/-- The weir that the registers show as awaited: from the run command on, in the safe state too (R167). -/
def shownWeir (s : State) : Option WeirEntry := if s.weir.phase = .noRun then none else weirAt s s.weir.await

/-- Conditions not yet latched, own and deferred together (R167, R170). -/
def openCount (s : State) : Nat :=
  match shownWeir s with
  | some e => (openConds s e).length + (s.weir.deferred.filter (fun d => !d.latched)).length
  | none => 0

/-- Whether a decision is withdrawn under HOLD (R164, R167). -/
def decisionHeld (s : State) : Bool := (shownWeir s).isSome && s.weir.hold && !s.weir.decided

/-- WEIR_STATUS (R167). -/
def weirStatus (s : State) : Nat :=
  ((shownWeir s).map (fun e => e.num)).getD 0 * 2 ^ 16 + phaseCode s.weir.phase * 2 ^ 13 + openCount s * 2 ^ 7 +
    b2n s.weir.seg * 64 + s.weir.gear * 16 + b2n (decisionHeld s) * 8

/-- WEIR_CTRL (R167). -/
def weirCtrl (s : State) : Nat := b2n s.weir.relayDis * 2 + b2n s.weir.hold

/-- TIER_STATUS (R230). MODE follows DEV_STATUS.STATE, and reads 0 once a fatal fault has ended the serving or the scrub
(DESIGN CHOICE, log entry 40). -/
def tierStatus (s : State) : Nat :=
  (if s.dev.st = .lender then 1 else if s.dev.st = .scrubbing then 2 else 0) * 2 ^ 30 +
    b2n (!s.tier.manQ.isEmpty) * 2 ^ 29 + b2n (!s.tier.hostQ.isEmpty) * 2 ^ 28

/-- TIER_POISON (R230). -/
def tierPoison (s : State) : Nat := s.tier.drops.toNat * 2 ^ 32 + s.tier.poison.toNat

/-- TIER_STK_ECC (R230). -/
def tierStkEcc (s : State) : Nat := s.tier.eccStack * 2 ^ 60 + s.tier.eccAddr * 2 ^ 32 + s.tier.eccCount.toNat

/-- Code of PORT_STATUS.STATE (R265). -/
def portCode : PortSt → Nat
  | .off => 0
  | .training => 1
  | .up => 2
  | .retraining => 3
  | .down => 4
  | .ceased => 5

/-- PORT_STATUS (R265). -/
def portStatus (q : Port) : Nat :=
  portCode q.st * 2 ^ 29 + q.role * 2 ^ 25 + q.bundle * 2 ^ 20 + q.member * 2 ^ 15 + b2n q.sealedReq * 2 ^ 14 +
    b2n q.key0.isSome * 2 ^ 13 + b2n q.key1.isSome * 2 ^ 12

/-- PORT_FILTER (R265). -/
def portFilter (q : Port) : Nat := q.tag.toNat * 256 + q.epoch.toNat

/-- Value of the register at an offset of the Damust block; an offset that is not listed is reserved and reads zero (R10,
R329). -/
def damustReg (off : Nat) (s : State) : Nat :=
  if off = 0x0000 then s.dev.physId.toNat
  else if off = 0x0008 then devInfo s
  else if off = 0x0010 then devStatus s
  else if off = 0x0018 then mbxLoad s
  else if off = 0x0100 then nowNs s % 2 ^ 64
  else if off = 0x0108 then timeStatus s
  else if off = 0x010C then timeOffset s
  else if off = 0x0180 then gearStatus s
  else if off = 0x0200 then safeStatus s
  else if off = 0x0208 then s.safe.time.toNat
  else if off = 0x0280 then s.logs.eventCount
  else if off = 0x0288 then s.logs.digestCount
  else if off = 0x0300 then weirStatus s
  else if off = 0x0304 then weirCtrl s
  else if off = 0x0308 then s.weir.holdTotal
  else if off = 0x0310 then s.weir.relays
  else if off = 0x0400 then tierStatus s
  else if off = 0x0408 then s.tier.holdMig
  else if off = 0x0410 then s.tier.holdStg
  else if off = 0x0418 then tierPoison s
  else if off = 0x0420 then tierStkEcc s
  else if 0x1000 ≤ off ∧ off < 0x1180 ∧ off % 16 = 0 then portStatus (portAt s ((off - 0x1000) / 16))
  else if 0x1000 ≤ off ∧ off < 0x1180 ∧ off % 16 = 4 then portFilter (portAt s ((off - 0x1000) / 16))
  else 0

/-! ## Register accesses -/

/-- GEAR_REQ_CLEAR: 1 written to GEAR_STATUS.REQ clears it; 0 leaves it (R334). -/
def execGearReqClear (v : Bool) (s : State) : Out :=
  .next (if mailboxUp s && v then { s with heat := { s.heat with req := false } } else s)

/-- GEAR_DROP_CLEAR: 1 written to GEAR_STATUS.DROP clears it; 0 leaves it (R334). -/
def execGearDropClear (v : Bool) (s : State) : Out :=
  .next (if mailboxUp s && v then { s with heat := { s.heat with drop := false } } else s)

/-- FRAME_ERR_READ: a read of TIME_STATUS returns FRAME_ERR and then clears it (R333). -/
def execFrameErrRead (s : State) : Out :=
  .next
    (if mailboxUp s then
       { s with cxl := { s.cxl with regOut := BitVec.ofNat 64 (timeStatus s) }, hall := { s.hall with frameErr := 0 } }
     else s)

/-- What a write to GEAR_STATUS does: its W1C bits (R334). -/
def writeGear (v : Nat) (s : State) : State :=
  { s with heat := { s.heat with req := s.heat.req && !bit v 7, drop := s.heat.drop && !bit v 6 } }

/-- A write of an MSI-X entry: address, data and mask, and a vector that is no longer masked is not pending. A write at a
multiple of 8 carries 8 bytes, one between them its low 4 bytes (R328; log entries 80, 91). -/
def writeMsix (off v : Nat) (s : State) : State :=
  let i := off / 16
  let e := s.cxl.msixTable.getD i MsixEntry.reset
  let lo := v % 2 ^ 32
  let e : MsixEntry :=
    if off % 16 = 0 then { e with addr := BitVec.ofNat 64 v }
    else if off % 16 = 4 then { e with addr := BitVec.ofNat 64 (e.addr.toNat % 2 ^ 32 + lo * 2 ^ 32) }
    else if off % 16 = 8 then { e with data := BitVec.ofNat 32 v, masked := bit v 32 }
    else if off % 16 = 12 then { e with masked := bit v 0 }
    else e
  { s with cxl := { s.cxl with
      msixTable := setAt s.cxl.msixTable i e,
      msixPending := setAt s.cxl.msixPending i (s.cxl.msixPending.getD i false && e.masked) } }

/-- REG_WRITE: a write of a register of configuration space or of BAR0, by its offset. BAR0 takes its address bits, GEAR_STATUS
its W1C bits, WEIR_CTRL its RW bits and the MSI-X table its entries; every other register is read-only or reserved, or has a
command of its own, and the write is ignored (R10, R167, R325, R328 to R336; log entry 45). The value carries 64 bits and goes
to the register at the offset alone: the spec states no access width for writes, and a write at WEIR_STATUS leaves WEIR_CTRL
alone (DESIGN CHOICE, log entry 80). -/
def execRegWrite (place : RegPlace) (value : W64) (s : State) : Out :=
  .next
    (if mailboxUp s = false then s
     else
       match place with
       | .config off => if off = 0x10 then { s with cxl := { s.cxl with bar0 := value >>> 20 <<< 20 } } else s
       | .bar0 off =>
         if off = 0x40180 then writeGear value.toNat s
         else if off = 0x40304 then setRelayDis (bit value.toNat 1) (setHold (bit value.toNat 0) s)
         else if 0x50000 ≤ off ∧ off < 0x50040 then writeMsix (off - 0x50000) value.toNat s
         else s)

end Sys2Proof.Machine
end

