-- ==== Sys2Proof/Machine/Warm.lean ====
section
/-! DEFINITION. Warm start and salvage (R248, R359 to R361, R375, R392, R408). The lattice reset, the actions of R248 and
the fresh LINK_INIT take place when the command (or CONTINUE) is accepted; the link check, the supplies and the final
state come with WARM_START_DONE (log entry 41). -/

namespace Sys2Proof.Machine

/-! ## The lattice reset (R359) -/

/-- A cluster after the lattice reset: its memories, their flaws and its counters stand (R359; log entry 41). -/
def resetCluster (cl : Cluster) : Cluster :=
  { Cluster.reset with
    mem := cl.mem, smem := cl.smem, rt0 := cl.rt0, rt1 := cl.rt1, cnt := cl.cnt, upsets := cl.upsets, ctlUpsets := cl.ctlUpsets }

/-- A staging or extraction list without progress. -/
def idleStage (l : StageList) : StageList :=
  { l with st := .idle, done := 0, rows := [], rowsRead := 0, bytes := [] }

/-- The lattice reset: every core, router, scoreboard, gate and weir-controller state, SAFE_STATUS and SAFE_TIME; with them
FAULT_N is released (R359, R429). The lists of the abandoned run and of the host are gone, and the run block with them
(R160, R411; log entry 41). -/
def resetLattice (s : State) : State :=
  { s with
    clusters := Tab.mapVals Cluster.reset (fun _ cl => resetCluster cl) s.clusters, wires := [],
    gates := s.gates.map (fun g => { g with pos := SlotPos.reset }), weir := WeirCtl.reset, safe := SafeReg.reset,
    power := { s.power with fault := false }, runBlk := RunBlock.reset, image := none, seals := [], commits := [],
    rings := Tab.mapVals Ring.reset (fun _ r => { r with extract := [] }) s.rings,
    tier := { s.tier with
      writes := [], stages := Tab.mapVals StageList.none (fun _ l => idleStage l) s.tier.stages,
      manQ := [], hostQ := [], served := none } }

/-- A port with a role starts a fresh exchange of LINK_INIT: one whose stream runs sends at once, one in training after
its PCS lock; an IDLE or DOWN port stays as it is (R359). -/
def freshInit (p : Nat) (s : State) : State :=
  let s := cutFrom p s
  let q := portAt s p
  if q.st = .up ∨ q.st = .ceased then
    sendInit p (updPort p (fun q => { linkZero q with st := .training, initSent := false, initRx := false }) s)
  else if q.st = .training ∨ q.st = .retraining then updPort p startTraining s
  else s

/-- A lender session that a fatal fault has cut ends here: its ports are IDLE again (log entry 40). -/
def dropLend (s : State) : State :=
  match s.tier.lend with
  | some l => endSession l s
  | none => s

/-- DEV_STATUS.STATE at the end of a warm start (R359). -/
def warmFinal (s : State) : DevState := if s.resident.isSome then .resident else .ready

/-- The warm start begins: the extraction writes under way have ended, the descriptors of the abandoned run complete with
EPOCH, then the lattice is reset (R248, R359, R399, R408). A failed audit on the way ends it in the safe state (R406, R407). -/
def beginWarm (s : State) : State :=
  let s := applyWrites s
  let s := logEvent 0x0102 0 0 0 (toLe 1 (stateCode (warmFinal s)))
    { s with dev := { s.dev with st := .warmStart }, mbx := { s.mbx with bg := some .warmStart, partPatch := none } }
  let s := endEpoch s
  if isSafe s then s else (List.range 24).foldl (fun s p => freshInit p s) (dropLend (resetLattice s))

/-! ## The commands (R340, R359 to R361, R392) -/

/-- Whether a transfer queue runs a descriptor. -/
def queuesRun (s : State) : Bool := s.queues.any (fun e => !e.2.running.isEmpty)

/-- The fields whose supply has tripped (R388, R389). -/
def trippedFields (s : State) : List Nat :=
  (List.range 94).filter (fun f =>
    let r := Tab.get FieldReg.reset s.heat.fields f
    r.supply == .thermalTrip || r.supply == .supplyFault)

/-- Whether a sensor of a field reads 85 °C or more (R392). -/
def fieldHot (s : State) (f : Nat) : Bool := decide (340 ≤ fieldQuarter s f) || decide (340 ≤ quarterAt s (.supply f))

/-- The offset of the frozen lc from the last release (R206, R367). -/
def frozenOffset (s : State) : Bytes := toLe 8 (s.lc - s.lastRelease)

/-- Enter salvage: nothing is cleared (R360). -/
def enterSalvage (s : State) : State :=
  finishBg (bgDone 0xC108 .ok)
    (logEvent 0x0104 0 0 0 (frozenOffset s)
      (started .warmStart { s with dev := { s.dev with st := .salvage } }))

/-- Leave salvage by CONTINUE (R360, R361). -/
def leaveSalvage (s : State) : State :=
  if !s.tier.hostQ.isEmpty then reply .busy [] s
  else if (trippedFields s).any (fieldHot s) then reply .state [] s
  else beginWarm (logEvent 0x0105 0 0 0 (frozenOffset s) (started .warmStart s))

/-- WARM_START without CONTINUE in states 2, 4, 5 and 7 (R359 to R361, R392). -/
def warmFrom (salvage : Bool) (s : State) : State :=
  if s.dev.st ≠ .safe ∧ (listsExecute s || queuesRun s) = true then reply .busy [] s
  else if (trippedFields s).any (fieldHot s) then reply .state [] s
  else if salvage then enterSalvage s
  else beginWarm (started .warmStart s)

/-- WARM_START: SALVAGE stops first in STATE 11; with CONTINUE it is the CONTINUE command (R340, R359, R360). -/
def execWarmStart (pl : Bytes) (s : State) : Out :=
  let fl := fieldB pl 0 1
  if bit fl 1 = true ∧ fl < 4 then vendor 0xC108 false [.salvage] leaveSalvage s
  else
    vendor 0xC108 false [.ready, .resident, .configured, .safe] (fun s =>
      if 4 ≤ fl then reply .range [] s else warmFrom (bit fl 0) s) s

/-- CONTINUE: leaves salvage and runs the warm start (R360, R361). -/
def execContWarm (s : State) : Out := vendor 0xC108 false [.salvage] leaveSalvage s

/-! ## The end (R359, R375, R392) -/

/-- The clusters of a field. -/
def fieldClusters (f : Nat) : List Nat :=
  (List.range (fieldHeight f)).flatMap (fun v => (List.range 32).map (fun u => clusterIn f u v))

/-- The link directions that cross the boundary of a field, both ways (R392). -/
def boundaryLinks (f : Nat) : List (Nat × Dir) :=
  (fieldClusters f).flatMap (fun c =>
    [Dir.north, Dir.east, Dir.south, Dir.west].flatMap (fun d =>
      match neighbour c d with
      | some n => if fieldAt n = f then [] else [(c, d), (n, opp d)]
      | none => []))

/-- A field whose supply trips again: it stays off, its clusters are suspect and its boundary links failed (R392). -/
def fieldStaysOff (s : State) (f : Nat) : State :=
  (boundaryLinks f).foldl (failLink 0x0203) ((fieldClusters f).foldl (fun s c => suspect c s) s)

/-- A field comes back at VSET, its PLL locked, and is measured again (R392, R393). -/
def fieldReturns (s : State) (f : Nat) : State :=
  measureField { s with heat := { s.heat with
    fields := Tab.upd FieldReg.reset s.heat.fields f (fun r => { r with supply := .on, pll := true }) } } f

/-- What the link check and the supplies find (R359, R375, R392). -/
def warmFindings (o : WarmOutcome) (s : State) : State :=
  let fs := trippedFields s
  let s := (fs.filter (fun f => !o.stillOff.contains f)).foldl fieldReturns s
  let s := addLanes o.lanes s
  let s := (fs.filter (fun f => o.stillOff.contains f)).foldl fieldStaysOff s
  (o.badMargin.filter (fun x => (neighbour x.1 x.2).isSome)).foldl (failLink 0x0204) s

/-- WARM_START_DONE: the link check's findings join the map, and the engine is in state 4 or 2 (R359). -/
def execWarmStartDone (o : WarmOutcome) (s : State) : Out :=
  .next
    (match s.mbx.bg, s.dev.st with
     | some .warmStart, .warmStart =>
       let s := warmFindings o s
       finishBg (bgDone 0xC108 .ok)
         (logEvent 0x0103 0 0 0 (toLe 1 (stateCode (warmFinal s))) { s with dev := { s.dev with st := warmFinal s } })
     | _, _ => s)

end Sys2Proof.Machine
end

