-- ==== Sys2Proof/Machine/Readback.lean ====
section
/-! DEFINITION. The state address space and READBACK (R202 to R207, R265, R286, R231, R348, R390, R393, R409, R414). What a
unit shows is a list of parts, each an offset range with its bytes; an offset in no part is an address error. Log entry
48 names the layouts that the spec leaves open. -/

namespace Sys2Proof.Machine

/-! ## Parts of a space -/

/-- A readable part of a space: its first offset, its size, and its bytes from an offset in it on. -/
structure Part where
  base : Nat
  size : Nat
  read : Nat → Nat → Bytes

/-- A part of fixed bytes. -/
def fixedPart (base : Nat) (bs : Bytes) : Part := { base := base, size := bs.length, read := fun lo n => sliceB bs lo n }

/-- Bytes of a row of records of one size. -/
def readRecs (size : Nat) (f : Nat → Bytes) (lo n : Nat) : Bytes :=
  sliceB ((List.range ((lo + n + size - 1) / size - lo / size)).flatMap (fun i => f (lo / size + i))) (lo % size) n

/-- A part of records of one size. -/
def recPart (base count size : Nat) (f : Nat → Bytes) : Part :=
  { base := base, size := count * size, read := readRecs size f }

/-- A part that reads as zero. -/
def zeroPart (base size : Nat) : Part := { base := base, size := size, read := fun _ n => zeros n }

/-- A part of a byte memory that starts at an address of it. -/
def memPart (base size : Nat) (m : Mem) (at_ : Nat) : Part :=
  { base := base, size := size, read := fun lo n => Mem.span 0 m (at_ + lo) n }

/-- Read a range of a space; none when an offset in it is not listed. -/
def readParts (ps : List Part) : Nat → Nat → Nat → Option Bytes
  | _, _, 0 => some []
  | 0, _, _ + 1 => none
  | fuel + 1, lo, n + 1 =>
    match ps.find? (fun p => decide (p.base ≤ lo) && decide (lo < p.base + p.size)) with
    | none => none
    | some p =>
      let k := min (n + 1) (p.base + p.size - lo)
      (readParts ps fuel (lo + k) (n + 1 - k)).map (fun bs => p.read (lo - p.base) k ++ bs)

/-- Read a range of a space given by its parts. -/
def readSpace (ps : List Part) (lo n : Nat) : Option Bytes := readParts ps (ps.length + 1) lo n

/-- What a range yields: its data, its bitmap of uncorrectable granules, its STATUS (R207). -/
structure RangeData where
  data : Bytes
  bitmap : Bytes
  status : Nat
deriving DecidableEq, Repr

/-- Plain data. -/
def plainData (d : Bytes) : RangeData := { data := d, bitmap := [], status := 0 }

/-- A bitmap, one bit per flag, padded to 8 bytes (R207). -/
def flagBytes (fs : List Bool) : Bytes :=
  toLe (roundUp ((fs.length + 7) / 8) 8) (fs.foldr (fun f n => b2n f + 2 * n) 0)

/-- Data of a protected memory with the flags of its granules (R92, R207). -/
def flaggedData (d : Bytes) (fs : List Bool) : RangeData :=
  { data := d, bitmap := flagBytes fs, status := if fs.any id then 2 else 0 }

/-! ## Cluster classes (R203) -/

/-- Code of a core's STATE (R203). -/
def coreCode : CoreSt → Nat
  | .stopped => 0
  | .issuing => 1
  | .waiting => 2
  | .atWeir => 3

/-- The registers of S0 or S1; bytes 0x0224 to 0x0227, which share an 8-byte word with the depth of the return stack, read as
zero (DESIGN CHOICE, log entry 99). -/
def scalarParts (gang : Bool) (c : Nat) (k : Sc) (cl : Cluster) : List Part :=
  let x := scalarCore k cl
  let rets := x.rets.reverse
  let loops := x.loops.reverse
  [fixedPart 0 ((List.range 32).flatMap (fun r => toLe 8 (readG gang c k r cl).toNat)),
   fixedPart 0x200 (toLe 4 x.pc ++ toLe 4 (coreCode x.st)),
   fixedPart 0x210 ((List.range 4).flatMap (fun i => toLe 4 (rets.getD i 0)) ++ toLe 4 rets.length ++ zeros 4),
   fixedPart 0x240 ((List.range 4).flatMap (fun i =>
     let l := loops.getD i { left := 0, start := 0, stop := 0 }
     toLe 4 l.left ++ toLe 2 l.start ++ toLe 2 l.stop))] ++
  (if k = .s1 then [fixedPart 0x100 ((List.range 8).flatMap (fun r => toLe 4 (readA r cl).toNat))] else [])

/-- The registers of a vector core. -/
def vectorParts (v : Nat) (cl : Cluster) : List Part :=
  let x := vecCore v cl
  [recPart 0 32 128 (fun r => lanesBytes (readV v r cl)),
   recPart 0x1000 8 4 (fun r => toLe 4 (readM v r cl).toNat),
   fixedPart 0x1040 (toLe 16 x.dig.toNat),
   fixedPart 0x1050 (toLe 16 x.tile.s.toNat ++ toLe 4 x.tile.tid.toNat ++ toLe 4 x.tile.row.toNat ++ toLe 4 x.tile.col.toNat ++
     toLe 4 x.tile.fmt.toNat ++ toLe 4 x.tile.words ++ zeros 12),
   fixedPart 0x1080 (toLe 8 x.gen.seed.toNat ++ toLe 4 x.gen.tid.toNat ++ zeros 4 ++ toLe 8 x.gen.step.toNat ++
     toLe 8 x.gen.ibase.toNat),
   fixedPart 0x1100 (toLe 4 x.pc ++ toLe 4 (coreCode x.st) ++ toLe 4 x.repLeft ++ toLe 4 x.repStart),
   memPart 0x2000 0x1010 x.fwd.img 0, memPart 0x4000 0x1010 x.der.img 0]

/-- The registers of a matrix core; `now` is the lc that has ended, so that the lc left count from the next one (R206). -/
def matrixParts (now core : Nat) (cl : Cluster) : List Part :=
  let x := matCore core cl
  [fixedPart 0 (toLe 4 (x.free - (now + 1)) ++ toLe 2 x.desc ++ zeros 2 ++ toLe 4 x.subB.toNat ++ zeros 4)] ++
  (if core < 8 then [fixedPart 0x200 (sliceB x.block 0 512)] else []) ++
  (if 4 ≤ core ∧ core < 8 then [fixedPart 0x400 (sliceB x.tbuf 0 1024)] else []) ++
  (if 8 ≤ core then [recPart 0x1000 1024 4 (fun i => toLe 4 (Tab.get 0 x.out i).toNat)] else [])

/-- Parts of core n of a cluster (R25, R203). -/
def coreParts (s : State) (c n : Nat) : List Part :=
  let cl := clusterAt s c
  if n < 12 then matrixParts s.lc n cl
  else if n < 18 then vectorParts (n - 12) cl
  else if n = 18 then scalarParts (inGang cl) c .s0 cl
  else if n = 19 then scalarParts (inGang cl) c .s1 cl
  else []

/-- Code of a scoreboard entry's STATE (R130). -/
def sbCode : SbSt → Nat
  | .idle => 0
  | .armed => 1
  | .done => 2

/-- A scoreboard entry in the layout of R130. -/
def scoreBytes (e : Score) : Bytes :=
  toLe 16 (e.arm * 2 ^ 112 + e.rel * 2 ^ 96 + sbCode e.st * 2 ^ 94 + e.landed * 2 ^ 83 + b2n e.amem * 2 ^ 62 + e.first * 2 ^ 52 +
    e.rows * 2 ^ 41 + e.expect * 2 ^ 30 + b2n e.gated * 2 ^ 29 + e.seg * 2 ^ 27)

/-- ROUTE_STATE (R145). -/
def routeState (p : SlotPos) : Nat :=
  b2n p.active * 2 ^ 31 + b2n (p.hold && p.run) * 2 ^ 30 + b2n p.run * 2 ^ 29 + p.cur1 % 1024 * 1024 + p.cur0 % 1024

/-- A landing buffer: 512 data bytes and its key (R203). -/
def landBytes (b : LandBuf) : Bytes :=
  let key := b.order % 65536 * 2 ^ 32 + 2 ^ 31 + b2n b.amem * 2 ^ 30 + b.row * 2 ^ 20 +
    (b.parts.map (fun e => 2 ^ e.1)).foldl (· + ·) 0
  (List.range 16).flatMap (fun i => flitBytes ((Tab.get none b.parts i).getD 0)) ++ toLe 8 key ++ zeros 504

/-- The flit in stage k of a link input (R203, R206): stage 0 is due in the next lc. -/
def stageFlit (s : State) (c : Nat) (d : Dir) (k : Nat) : Flit :=
  ((s.wires.find? (fun w => w.dst == c && w.inp == d && w.due == s.lc + 1 + k)).map (fun w => w.flit)).getD idleFlit

/-- The entries of a queue of part 4 (R203): mesh inbound, which holds nothing between two lc, mesh outbound, then
vector-to-matrix and matrix-to-vector (log entry 9). -/
def queueEntries (cl : Cluster) (q : Nat) : List Bytes :=
  if q = 1 then cl.rpipe.map Prod.snd else if q = 2 then cl.vmq else if q = 3 then cl.mvq else []

/-- The parts of class 0x3 (R203). The bytes that the rule does not lay out, 36 to 63 of a link stage and those behind the entry
count of a queue, read as zero (DESIGN CHOICE, log entry 99). -/
def routerParts (s : State) (c part : Nat) : List Part :=
  let cl := clusterAt s c
  if part = 0 then [recPart 0 64 16 (fun i => scoreBytes (Tab.get Score.reset cl.sb i))]
  else if part = 1 then [fixedPart 0 (toLe 4 (routeState cl.pos) ++ toLe 4 (linkSpare s c).toNat)]
  else if part = 2 then
    (List.range 4).map (fun b =>
      match cl.land[b]? with
      | some x => { fixedPart (0x400 * b) (landBytes x) with size := 0x208 }
      | none => zeroPart (0x400 * b) 0x208)
  else if part = 3 then
    (List.range 4).map (fun d => recPart (0x400 * d) 12 64 (fun k =>
      let f := stageFlit s c (dirOf d) k
      flitBytes f.data ++ toLe 4 f.side.toNat ++ zeros 28))
  else if part = 4 then
    (List.range 4).flatMap (fun q =>
      let es := queueEntries cl q
      [fixedPart (0x2000 * q) (toLe 4 es.length ++ zeros 60), recPart (0x2000 * q + 64) 64 64 (fun i => padB (es.getD i []) 64)])
  else []

/-- Cluster counters (R203). -/
def counterParts (cl : Cluster) : List Part :=
  let k := cl.cnt
  let bs := [k.numNan, k.numInf, k.numSat, k.scReset, k.digAbandon, k.meshNan, k.meshInf, k.eccCorr, k.eccLast].flatMap
    (fun x => toLe 4 x.toNat)
  [fixedPart 0 bs, zeroPart 0x24 (0x10000 - 0x24)]

/-- The test ROM: its last 256 bytes are zero (R83). -/
def testRomPart : Part :=
  { base := 0, size := 0x1000,
    read := fun lo n => (List.range n).map (fun i => if lo + i < 0xF00 then Config.testRom (lo + i) else 0) }

/-- Cluster control memories by SPACE: the memory, its size, and the granule number its flaws start at (R203). -/
def controlRead (cl : Cluster) (space off len : Nat) : Option RangeData :=
  let flags (g0 : Nat) : List Bool := (granules off len).map (fun g => Tab.get 0 cl.ctlUpsets (g0 + g) == 10)
  if space = 0 then
    if off + len ≤ 0xC000 then some (flaggedData (Mem.span 0 cl.smem off len) (flags 0)) else none
  else if space = 1 ∨ space = 2 then
    let t := if space = 1 then cl.rt0 else cl.rt1
    if off + len ≤ 0x2000 then
      some (flaggedData (readRecs 8 (fun e => toLe 8 (Tab.get 0 t e).toNat) off len) (flags (65536 + (space - 1) * 512)))
    else none
  else if space = 3 then
    (readSpace [testRomPart] off len).map (fun d => flaggedData d ((granules off len).map (fun _ => false)))
  else none

/-- Read a cluster-located class (R203). -/
def clusterRead (s : State) (cls c off len : Nat) : Option RangeData :=
  let cl := clusterAt s c
  if cls = 0 then
    if off + len ≤ dataSize then
      some (flaggedData (Mem.span 0 cl.mem off len) ((granules off len).map (fun g => Tab.get 0 cl.upsets g == 10)))
    else none
  else if cls = 1 then (if bits off 39 16 = 0 then controlRead cl (bits off 42 40) (off % 65536) len else none)
  else if cls = 2 then
    (if bits off 37 16 = 0 then (readSpace (coreParts s c (bits off 42 38)) (off % 65536) len).map plainData else none)
  else if cls = 3 then
    (if bits off 39 16 = 0 then (readSpace (routerParts s c (bits off 42 40)) (off % 65536) len).map plainData else none)
  else (readSpace (counterParts cl) off len).map plainData

/-! ## Module logs (R204) -/

/-- Class 0x7 with y = 0xFF. -/
def logParts (s : State) : List Part :=
  [recPart 0 4096 32 (fun i => weirBytes (Tab.get WeirRec.zero s.logs.weirs i)),
   recPart 0x20000 8192 32 (fun i => digestBytes (Tab.get DigestRec.zero s.logs.digests i)),
   fixedPart 0xF0000 (toLe 8 s.logs.weirCount ++ toLe 8 s.logs.digestCount),
   recPart 0x100000 16384 32 (fun i => eventBytes (Tab.get EventRec.zero s.logs.events i))]

/-! ## Ring tables (R265, R286, R414) -/

/-- CTRL of a sluice entry (R252). -/
def sluiceCtrl (x : Sluice) : Nat :=
  b2n x.marker + 2 * b2n x.units + 4 * x.vsrc + 16 * b2n x.tee + 32 * b2n x.host + 64 * b2n x.carry + 128 * b2n x.trailer

/-- Code of a sluice's STATE (R252). -/
def sluiceCode : SluiceSt → Nat
  | .closed => 0
  | .opened => 1
  | .draining => 2
  | .complete => 3

/-- A sluice entry (R252); an absent one reads as zeros. -/
def sluiceBytes (i : Nat) (x : Sluice) : Bytes :=
  if x.present = false then zeros 64
  else
    toLe 2 i ++ toLe 2 x.openWeir ++ toLe 2 x.closeWeir ++ toLe 1 (sluiceCtrl x) ++ toLe 1 (sluiceCode x.st) ++ toLe 4 x.count ++
      toLe 4 x.landed ++ toLe 4 x.tid.toNat ++
      (if x.units then toLe 4 x.firstUnit else toLe 2 x.row ++ toLe 2 x.rowStep) ++ toLe 4 x.bmap ++ zeros 4 ++
      toLe 6 x.version ++ zeros 2 ++ toLe 4 x.parked ++ zeros 20

/-- The shard record of a sluice (R286). -/
def shardBytes (s : State) (d i : Nat) : Bytes :=
  let x := sluiceAt s (sluiceKey d i)
  let held := ((ringAt s d).reqs.filter (fun r => r.sluice == i && !r.served)).length
  toLe 8 (x.check * 2 ^ 62 + held % 65536 * 65536 + x.rerq % 65536)

/-- The counters of a ring die (R265, R286, R414). -/
def ringCounters (r : Ring) : Bytes :=
  let k := r.cnt
  [k.sluIndex, k.sluLate, k.sluBounds, k.sluVersion, k.sluDup, k.sluCrc, k.sluShort, BitVec.ofNat 64 r.parked.length, k.shardReqTx,
   k.shardRerq, k.shardServed, k.shardStale, k.shardChecks, k.commitStray, k.teeDrop].flatMap (fun x => toLe 8 x.toNat)

/-- The 64 bits of a word of the bitmap pool (R265). -/
def poolWord (s : State) (d w : Nat) : Bytes :=
  let xs := s.sluices.filter (fun e => e.1 / 32768 == d && e.2.present)
  toLe 8 ((xs.flatMap (fun e => (e.2.bits.map (· + e.2.bmap)).filter (fun b => b / 64 == w))).foldl
    (fun n b => n ||| 2 ^ (b % 64)) 0)

/-- STATE of a transfer queue (R265). -/
def queueCode (q : Queue) : Nat := if q.manifest then 2 else if openDescs q = 0 then 0 else 1

/-- A transfer queue (R265). -/
def queueBytes (q : Queue) : Bytes :=
  padB (toLe 4 (queueCode q) ++ toLe 4 (if q.manifest then q.first else 0) ++ toLe 4 (if q.manifest then q.descs.length else 0) ++
    toLe 4 q.running.length ++ toLe 8 q.completions ++ toLe 4 q.next ++ toLe 4 q.cring ++ toLe 4 q.dup.toNat) 64

/-- A descriptor in the layout of R258. -/
def descBytes (d : Desc) : Bytes :=
  toLe 1 d.kind ++ toLe 1 (b2n d.srcx + 2 * b2n d.weirStart) ++ toLe 1 d.vl ++ [0] ++ toLe 4 d.tag.toNat ++ toLe 4 d.count ++
    toLe 4 d.src ++ toLe 2 d.dsl ++ toLe 2 d.dfirst ++ toLe 4 d.dunit ++ toLe 8 d.home ++ toLe 2 d.startWeir ++ zeros 6 ++
    toLe 4 d.tid.toNat ++ toLe 1 d.fmt ++ toLe 1 d.shape ++ toLe 2 d.trb ++ toLe 3 d.trow ++ toLe 3 d.tcol ++ zeros 10

/-- Prewritten descriptor n of a ring die (R265). -/
def prewritten (s : State) (d n : Nat) : Bytes :=
  match s.queues.find? (fun e =>
      e.1 / 2048 == d && e.2.manifest && decide (e.2.first ≤ n) && decide (n < e.2.first + e.2.descs.length)) with
  | some e => ((e.2.descs[n - e.2.first]?).map descBytes).getD (zeros 64)
  | none => zeros 64

/-- A lane of a port (R265). -/
def laneRecord (l : Lane) : Bytes :=
  toLe 4 l.fs ++ toLe 4 l.fr ++ toLe 4 l.limit ++ toLe 4 l.freed ++ toLe 4 l.occ ++ toLe 4 l.expect ++ zeros 8

/-- The state and counters of local port j (R265). -/
def portParts (j : Nat) (q : Port) : List Part :=
  let k := q.cnt
  [fixedPart (0x1000 * j)
     (toLe 4 (portStatus q) ++ toLe 4 (portFilter q) ++ toLe 8 q.partnerId.toNat ++ toLe 4 q.partnerPort.toNat ++ zeros 12),
   fixedPart (0x1000 * j + 0x20)
     ([k.flitBad, k.dupFlit, k.replays, k.retrains, k.filterDrop, k.frameBad, k.sealFail, k.carryTx, k.carryRx].flatMap
       (fun x => toLe 4 x.toNat) ++ zeros 4),
   recPart (0x1000 * j + 0x100) 8 32 (fun v => laneRecord (laneAt q v)),
   recPart (0x1000 * j + 0x800) 32 40 (fun i => padB (Tab.get [] q.digRing i) 40),
   fixedPart (0x1000 * j + 0xD00) (toLe 8 q.digCount)]

/-- Gate schedules: bank k of link l at (2l + k) × 0x2000 (R204, R231). -/
def gateWord (s : State) (stackGate : Bool) (site n : Nat) : Bytes :=
  let slot := n / 1024
  match s.gates.find? (fun g => g.id == { stackGate := stackGate, site := site, link := slot / 2 }) with
  | some g => toLe 8 ((if slot % 2 = 0 then g.bank0 else g.bank1).getD (n % 1024) 0).toNat
  | none => zeros 8

/-- The tables of a ring die (R204, R265). -/
def ringParts (s : State) (d table : Nat) : List Part :=
  if table = 0 then
    [recPart 0 32768 64 (fun i => sluiceBytes i (sluiceAt s (sluiceKey d i))), fixedPart 0x200000 (ringCounters (ringAt s d)),
     recPart 0x300000 32768 8 (shardBytes s d)]
  else if table = 1 then [recPart 0 0x80000 8 (poolWord s d)]
  else if table = 2 then
    [recPart 0 2048 64 (fun q => queueBytes (queueAt s (2048 * d + q))), recPart 0x1000000 65536 64 (prewritten s d)]
  else if table = 3 then portParts 0 (portAt s (2 * d)) ++ portParts 1 (portAt s (2 * d + 1))
  else if table = 4 then [recPart 0 65536 8 (gateWord s false d)]
  else []

/-! ## Stacks (R202, R210, R214) -/

/-- The two words of a map entry (R214). -/
def mapBytes (e : MapEntry) : Bytes :=
  toLe 8 (b2n e.res * 2 ^ 63 + b2n e.dirty * 2 ^ 62 + e.acct * 2 ^ 56 + e.stack * 2 ^ 23 + e.slot) ++
    toLe 8 (e.htier * 2 ^ 62 + e.hacct * 2 ^ 56 + e.loc)

/-- Byte i of a stack's slot bitmap (R210). -/
def slotBits (s : State) (stack i : Nat) : Bytes :=
  toLe 1 ((s.tier.map.filter (fun e => e.2.res && e.2.stack == stack && e.2.slot / 8 == i)).foldl
    (fun n e => n ||| 2 ^ (e.2.slot % 8)) 0)

/-- The physical space of a stack; the tier engine's work area is not architectural and reads as free values (R210; log
entries 6 and 48). -/
def stackParts (s : State) (free stack : Nat) : List Part :=
  [memPart 0 0x1130000000 s.stackMem (stackKey stack 0),
   recPart 0x1130000000 0x2000000 16 (fun i => mapBytes (mapAt s (16 * i + stack))),
   recPart 0x1150000000 528384 1 (slotBits s stack),
   { base := 0x1150081000, size := 0x1170000000 - 0x1150081000,
     read := fun _ n => (List.range n).map (fun i => Config.free 8 (free + i)) },
   memPart 0x1170000000 0x90000000 s.stackMem (stackKey stack 0x1170000000)]

/-- Whether an uncorrectable granule lies in a stack range (R209). -/
def stackFlawed (s : State) (stack lo n : Nat) : Bool :=
  s.stackUpsets.any (fun e =>
    e.2 == 2 && decide (stackKey stack lo / 16 ≤ e.1) && decide (e.1 < (stackKey stack lo + n + 15) / 16))

/-- Read class 0x5 (R202). -/
def stackRead (s : State) (free stack lo n : Nat) : Option RangeData :=
  (readSpace (stackParts s free stack) lo n).map (fun d =>
    { data := d, bitmap := [], status := if stackFlawed s stack lo n then 2 else 0 })

/-! ## Hub and steward (R204, R231, R348, R393) -/

/-- A policy block in force in 48 bytes (R364). -/
def policyBytes (p : Policy) : Bytes :=
  toLe 2 p.type ++ zeros 2 ++ toLe 4 p.version ++ toLe 2 p.minRom ++ toLe 2 p.maxRom ++ zeros 4 ++ sliceB p.digest 0 32

/-- The eight entries of the policy in force, in TYPE order (R348, R364). -/
def policyTable (s : State) : Bytes := padB (s.ids.policies.flatMap policyBytes) 384

/-- The steward's state (R348); secrets and the PUF region read as zeros. -/
def stewardParts (s : State) (free : Nat) : List Part :=
  [zeroPart 0 0x1000,
   fixedPart 0x1000
     (padB (sliceB s.ids.pk 0 32 ++ sliceB s.ids.idHash 0 32 ++ toLe 8 s.dev.physId.toNat ++ sliceB s.ids.linkPub 0 97) 256),
   fixedPart 0x2000 (policyTable s),
   { base := 0x3000, size := 0x7D000, read := fun _ n => (List.range n).map (fun i => Config.free 8 (free + i)) },
   recPart 0x80000 16384 32 (fun i => eventBytes (Tab.get EventRec.zero s.logs.events i)),
   zeroPart 0x100000 0x10000]

/-- Whether a steward range touches a withheld one (R204, R348). -/
def withheld (lo n : Nat) : Bool :=
  decide (0 < n) && (decide (lo < 0x1000) || (decide (lo < 0x110000) && decide (0x100000 < lo + n)))

/-- A quota account (R231). -/
def acctBytes (a : Account) : Bytes :=
  toLe 8 a.limit ++ toLe 8 a.used ++ toLe 1 (b2n a.hostAcc) ++ toLe 1 a.bundle ++ zeros 6 ++ toLe 8 a.base

/-- The state of a list in 16 bytes (R231). -/
def listBytes (r : ListRec) : Bytes := toLe 4 (listStCode r.st) ++ toLe 4 r.next ++ toLe 4 r.cause ++ zeros 4

/-- The tier engine (R230, R231). -/
def tierParts (s : State) : List Part :=
  [fixedPart 0 (padB (toLe 4 (tierStatus s) ++ zeros 4 ++ toLe 8 s.tier.holdMig ++ toLe 8 s.tier.holdStg ++ toLe 8 (tierPoison s) ++
     toLe 8 (tierStkEcc s)) 256),
   recPart 0x1000 192 32 (fun i => acctBytes (Tab.get Account.reset s.tier.accts i)),
   fixedPart 0x2800 (toLe 8 s.tier.inUse),
   recPart 0x100000 65536 16 (fun l => listBytes (listRec s l))]

/-- The index of the entry that tile number n of a list belongs to (R221). -/
def entryIndex : List StageEnt → Nat → Nat
  | [], _ => 0
  | e :: es, n => if n < e.count then 0 else 1 + entryIndex es (n - e.count)

/-- The state of a staging or extraction list (R231). -/
def stageRec (l : StageList) : ListRec := { st := l.st, next := entryIndex l.entries l.done, cause := 0, unit := 0 }

/-- What the staging lists of a stack hold in its injection buffer, or its extraction lists in the extraction buffer, in list
order (R222, R223; log entry 48). -/
def stageBuffer (s : State) (stack : Nat) (extraction : Bool) : Bytes :=
  (s.tier.stages.filter (fun e => e.1 / 131072 == stack && e.1 / 65536 % 2 == b2n extraction)).flatMap (fun e =>
    if extraction then e.2.bytes else e.2.rows.flatMap (fun r => r.2.2))

/-- A stack controller: 4 bytes of status, the corrected-error count in the 4 bytes behind them, zeros to 0xFF (DESIGN CHOICE,
log entry 88), its buffers and lists (R231). -/
def controllerParts (s : State) (stack : Nat) : List Part :=
  [fixedPart 0 (padB (toLe 4 (Config.stackStatus stack s.lc).toNat ++ toLe 4 (Tab.get (0 : W32) s.tier.stackEcc stack).toNat) 256),
   { base := 0x200000, size := 0x200000, read := fun lo n => sliceB (stageBuffer s stack false) lo n },
   { base := 0x400000, size := 0x80000, read := fun lo n => sliceB (stageBuffer s stack true) lo n },
   recPart 0x1000000 524288 16 (fun l => if l < 65536 then listBytes (stageRec (stageAt s (stageKey stack false l))) else zeros 16),
   recPart 0x1800000 524288 16 (fun l => if l < 65536 then listBytes (stageRec (stageAt s (stageKey stack true l))) else zeros 16),
   recPart 0x2000000 65536 8 (gateWord s true stack)]

/-- Code of a feed's state (R393). -/
def feedCode : FeedState → Nat
  | .absent => 0
  | .inRange => 1
  | .disconnected => 2

/-- A feed (R393). -/
def feedBytes (f : FeedReg) : Bytes := toLe 4 f.mv ++ toLe 4 f.ma ++ toLe 4 f.watts ++ toLe 4 (feedCode f.st)

/-- Code of a field's supply state (R393). -/
def supplyCode : SupplyState → Nat
  | .off => 0
  | .on => 1
  | .thermalTrip => 2
  | .supplyFault => 3

/-- A field (R393). -/
def fieldBytes (s : State) (f : Nat) : Bytes :=
  let r := Tab.get FieldReg.reset s.heat.fields f
  toLe 2 r.vset ++ toLe 2 r.mv ++ toLe 4 r.ma ++ toLe 2 r.vmin ++ toLe 1 (degrees (fieldQuarter s f)) ++ toLe 1 (supplyCode r.supply) ++
    toLe 1 (b2n r.pll) ++ zeros 3

/-- A temperature in 0.25 °C, two's complement (R393). -/
def tempBytes (s : State) (k : Sensor) : Bytes := toLe 2 (BitVec.ofInt 16 (quarterAt s k)).toNat

/-- Clock, time and power state (R393); unlisted bytes that share an 8-byte word with listed ones read as zero (DESIGN CHOICE,
log entry 99). -/
def powerParts (s : State) : List Part :=
  let h := s.hall
  [fixedPart 0 (toLe 8 (nowNs s) ++ toLe 4 (timeStatus s) ++ toLe 4 (timeOffset s) ++ toLe 8 (BitVec.ofInt 64 h.rate).toNat ++
     toLe 4 (BitVec.ofInt 32 h.lastErr).toNat ++ toLe 4 h.frames),
   fixedPart 0x100 (toLe 8 (b2n s.power.refPresent + 2 * b2n h.ref10 + 4 * b2n s.power.hallRefBad)),
   fixedPart 0x110 (feedBytes s.power.feedA ++ feedBytes s.power.feedB),
   fixedPart 0x180 (toLe 8 (gearStatus s)),
   recPart 0x1000 94 16 (fieldBytes s),
   recPart 0x2000 752 2 (fun i => tempBytes s (.junction (i / 8) (i % 8))),
   fixedPart 0x3000 ((List.range 12).flatMap (fun k => tempBytes s (.ringDie k)) ++ tempBytes s .hub ++ zeros 6 ++
     (List.range 16).flatMap (fun n => tempBytes s (.stack n)) ++ (List.range 4).flatMap (fun i => tempBytes s (.coolant i))),
   fixedPart 0x3100 ((List.range 94).flatMap (fun f => tempBytes s (.supply f)) ++ zeros 4),
   fixedPart 0xF000 (toLe 8 s.heat.histCount),
   recPart 0x10000 3600 144 (fun i => padB (Tab.get [] s.heat.history i) 144)]

/-- Read class 0x6: unit 0 the steward, 2 the tier engine, 3 clock, time and power, 4 the stack controllers; the spec gives
no layout of unit 1, whose every offset is then an address error (R204; log entry 48). -/
def hubRead (s : State) (free unit inst lo n : Nat) : Option RangeData :=
  if unit = 4 then (readSpace (controllerParts s inst) lo n).map plainData
  else if inst ≠ 0 then none
  else if unit = 0 then
    (readSpace (stewardParts s free) lo n).map (fun d => { plainData d with status := if withheld lo n then 4 else 0 })
  else if unit = 2 then (readSpace (tierParts s) lo n).map plainData
  else if unit = 3 then (readSpace (powerParts s) lo n).map plainData
  else none

/-! ## A range (R202, R207, R390) -/

/-- Whether the field of a cluster has its supply (R390). -/
def fieldPowered (s : State) (c : Nat) : Bool := (Tab.get FieldReg.reset s.heat.fields (fieldAt c)).supply == .on

/-- What a state-address range reads; none is an address error. `free` numbers the free values of contents that are not
architectural. -/
def stateRead (s : State) (free a len : Nat) : Option RangeData :=
  let cls := a / 2 ^ 60
  let y := bits a 59 52
  let x := bits a 51 43
  if a % 8 ≠ 0 ∨ len % 8 ≠ 0 then none
  else if cls = 4 then
    (if 12 ≤ bits a 59 56 then none else (readSpace (ringParts s (bits a 59 56) (bits a 55 52)) (a % 2 ^ 52) len).map plainData)
  else if cls = 5 then (if bits a 55 37 ≠ 0 then none else stackRead s free (bits a 59 56) (a % 2 ^ 37) len)
  else if cls = 6 then hubRead s free (bits a 59 56) (bits a 55 52) (a % 2 ^ 52) len
  else if cls = 7 ∧ y = 0xFF then (if x ≠ 0 then none else (readSpace (logParts s) (a % 2 ^ 43) len).map plainData)
  else if cls = 0 ∨ cls = 1 ∨ cls = 2 ∨ cls = 3 ∨ cls = 7 then
    (if 352 ≤ x ∨ isCluster (cnum x y) = false ∨ fieldPowered s (cnum x y) = false then none
     else clusterRead s cls (cnum x y) (a % 2 ^ 43) len)
  else none

/-! ## READBACK (R205, R207, R340) -/

/-- Size of the salvage area (R198). -/
def salvageSize : Nat := 2 ^ 32

/-- Stack key of byte k of the salvage area (R213). -/
def salvageKey (k : Nat) : Nat := stackKey (k / 4096 % 16) (0x11F0000000 + k / 65536 * 4096 + k % 4096)

/-- Write salvage bytes from byte k on, page by page; `fuel` bounds the pages. -/
def writeSalvage : Nat → Nat → Bytes → State → State
  | 0, _, _, s => s
  | fuel + 1, k, bs, s =>
    if bs.isEmpty then s
    else
      let n := 4096 - k % 4096
      writeSalvage fuel (k + n) (bs.drop n) (writeStack (salvageKey k) (bs.take n) s)

/-- The record of one range with `room` bytes left: header, data, bitmap (R207). -/
def rangeRecord (s : State) (free room : Nat) (r : Nat × Nat) : Bytes :=
  let d := (stateRead s free r.1 r.2).getD { data := [], bitmap := [], status := 1 }
  let body := d.data ++ d.bitmap
  let status := if room < 32 + body.length then d.status + 8 else d.status
  toLe 8 r.1 ++ toLe 8 r.2 ++ toLe 4 status ++ zeros 12 ++ body.take ((room - 32) / 8 * 8)

/-- The records of the ranges from salvage byte `pos` on, and the bytes written; a record without room for its header is not
written (R207; log entry 48). -/
def writeRecords : List (Nat × Nat) → Nat → State → State × Nat
  | [], pos, s => (s, pos)
  | r :: rs, pos, s =>
    if salvageSize < pos + 32 then (s, pos)
    else
      let b := rangeRecord s (s.freeCount + pos) (salvageSize - pos) r
      writeRecords rs (pos + b.length) (writeSalvage (b.length / 4096 + 2) pos b s)

/-- The ranges of a READBACK payload (R340). -/
def rangesOf (pl : Bytes) : List (Nat × Nat) :=
  (List.range (fieldB pl 0 4)).map (fun i => (fieldB pl (8 + 16 * i) 8, fieldB pl (16 + 16 * i) 8))

/-- READBACK: the copy of up to 256 ranges begins (R205, R207, R340). -/
def execReadback (pl : Bytes) (s : State) : Out :=
  vendor 0xC109 false [.ready, .loadOpen, .resident, .configured, .safe, .lender, .scrubbing, .warmStart, .salvage] (fun s =>
    let n := fieldB pl 0 4
    if n = 0 ∨ 256 < n ∨ zeroB pl 4 4 = false then reply .range [] s
    else started (.readback (rangesOf pl)) s) s

/-- READBACK_DONE: the feeds' readings are those of now; one record per range in the salvage area, and the bytes written in
BG_RESULT (R207, R340). -/
def execReadbackDone (s : State) : Out :=
  .next
    (match s.mbx.reading with
     | some (.readback rs) =>
       let s := settleLoad (applyWrites s)
       let r := writeRecords rs 0 s
       finishRead { bgDone 0xC109 .ok with value := r.2 } { r.1 with freeCount := s.freeCount + r.2 }
     | _ => s)

/-! ## Attestation (R340, R364, R365) -/

/-- RELIEF_DIGEST (R364). -/
def reliefDigest (s : State) : Bytes :=
  match s.image with
  | some i =>
    if i.applied.isEmpty then zeros 32
    else
      sha256 ((List.range 94).flatMap (fun f =>
        (i.applied.filter (fun a => a.1 == f)).flatMap (fun a => sha256 (a.2.take (0x60 + patchBody a.2)))))
  | none => zeros 32

/-- The factory defect map as stored, signature included (R26, R364). -/
def factoryRecord (s : State) : Bytes := flashRead s factoryAt (0x22A0 + 4 * min 8192 (leNat (flashRead s (factoryAt + 0xC) 4)) + 7856)

/-- FLAGS of the quote (R364). -/
def quoteFlags (s : State) : Nat :=
  b2n s.hall.lock + 2 * b2n s.hall.offsetSet + 4 * b2n s.dev.ident + 8 * b2n s.dev.guard + 16 * b2n s.cxl.ide

/-- Bytes 0x000 to 0x2B7 of a quote (R364). -/
def quoteBody (nonce : Bytes) (s : State) : Bytes :=
  ascii "PLYQ" ++ toLe 2 1 ++ toLe 2 s.ids.policies.length ++ toLe 8 s.dev.physId.toNat ++ sliceB s.ids.idHash 0 32 ++
    sha256 s.ids.linkPub ++ toLe 2 Config.romLevel.toNat ++ toLe 1 s.dev.grade.toNat ++ toLe 1 (stateCode s.dev.st) ++
    toLe 4 (goodCount s) ++ toLe 8 (nowNs s) ++ toLe 1 (quoteFlags s) ++ zeros 7 ++ nonce ++ sha256 (factoryRecord s) ++
    sha256 (mergedRecord s) ++ sliceB ((s.resident.map (fun r => r.digest)).getD []) 0 32 ++
    sliceB ((s.resident.map (fun r => r.ownerHash)).getD []) 0 32 ++ reliefDigest s ++ toLe 2 s.ids.tag.toNat ++
    toLe 1 s.ids.epoch.toNat ++ [0] ++ toLe 2 s.ids.rank ++ toLe 2 s.ids.stage ++ toLe 2 s.ids.n ++ zeros 6 ++ policyTable s

/-- ATTEST: the fields are sampled and signing begins (R340, R364, R365). -/
def execAttest (pl : Bytes) (s : State) : Out :=
  vendor 0xC10A false startedStates (fun s => started (.attest (quoteBody (sliceB pl 0 32) s)) s) s

/-- ATTEST_DONE: the quote is signed and placed in BG_RESULT (R340, R364, R365). -/
def execAttestDone (s : State) : Out :=
  .next
    (match s.mbx.reading with
     | some (.attest q) =>
       finishRead { bgDone 0xC10A .ok with quote := q ++ Config.slhSign (s.ids.secret.take 48) (sha256 q) }
         (logEvent 0x0702 0 0 0 (sliceB q 0x68 16) s)
     | _ => s)

end Sys2Proof.Machine
end

