-- ==== Sys2Proof/Machine/HostLink.lean ====
section
/-! DEFINITION. The host link: training, resets, the HDM decoder, SPDM and IDE, and host memory accesses (R209, R212, R213,
R225, R226, R322 to R327, R346, R363). -/

namespace Sys2Proof.Machine

/-! ## Link and resets (R322, R326, R346) -/

/-- A loss of the link, a hot reset or a function-level reset: configuration space, the BAR0 assignment and the decoder are at
their reset values (R326), and the output of a foreground command is lost; a background command and its result stay (R346). -/
def resetConfig (s : State) : State :=
  { s with cxl := { s.cxl with bar0 := 0, committed := false, decErr := false },
           mbx := { s.mbx with rc := 0, dstatus := .ok, check := 0, out := [] } }

/-- PERST_N_RELEASE: the link trains to the best mode the channel sustains, or to none; it has been down, so configuration
space is at reset (R322, R326, R350). -/
def execPerstNRelease (channel : Channel) (s : State) : Out :=
  .next (if s.power.on then trainHost channel (resetConfig s) else s)

/-- HOT_RESET: configuration space, BAR0 and decoder return to reset; the engine state stands (R326). -/
def execHotReset (s : State) : Out := .next (if mailboxUp s then resetConfig s else s)

/-- FUNCTION_LEVEL_RESET: as a hot reset (R326). -/
def execFunctionLevelReset (s : State) : Out := .next (if mailboxUp s then resetConfig s else s)

/-- HOST_LINK_LOSS: the link is down, configuration space and the decoder at reset; a background command goes on (R326, R346,
R427). -/
def execHostLinkLoss (s : State) : Out :=
  .next
    (if mailboxUp s then
       let s := resetConfig s
       { s with cxl := { s.cxl with link := false, mode := LinkMode.none } }
     else s)

/-- HDM_COMMIT: one way and target type HDM-H commit; any other commit fails, and CXL.mem decodes nothing (R326). -/
def execHdmCommit (ways : Nat) (hdmH : Bool) (s : State) : Out :=
  .next
    (if mailboxUp s then
       let good := ways == 1 && hdmH
       { s with cxl := { s.cxl with committed := good, decErr := !good } }
     else s)

/-! ## SPDM and IDE (R324, R363) -/

/-- The keys of a stream are programmed (R324). -/
def keyStream (i : IdeStream) (x : Cxl) : Cxl :=
  match i with
  | .selective => { x with ideKeyed := true }
  | .cachemem => { x with memKeyed := true }

/-- Whether a stream has its keys. -/
def streamKeyed (i : IdeStream) (x : Cxl) : Bool :=
  match i with
  | .selective => x.ideKeyed
  | .cachemem => x.memKeyed

/-- A stream enters or leaves its secure state: the selective stream, or CXL.cachemem IDE in containment mode (R324). -/
def setStream (i : IdeStream) (secure : Bool) (x : Cxl) : Cxl :=
  match i with
  | .selective => { x with ide := secure }
  | .cachemem => { x with memIde := secure }

/-- What an SPDM request changes besides being answered: FINISH opens the session, IDE keys are taken inside one only, and a
stream is secure once its keys are in use (R324, R363). -/
def spdmEffect (m : Spdm) (x : Cxl) : Cxl :=
  match m with
  | .plain _ => x
  | .finish good => { x with session := x.session || good }
  | .endSession => { x with session := false }
  | .ideKey i => if x.session then keyStream i x else x
  | .ideGo i => if x.session && streamKeyed i x then setStream i true x else x
  | .ideStop i => if x.session then setStream i false x else x

/-- SPDM_MESSAGE: the request is answered (R363; log entry 14 for the contents). -/
def execSpdmMessage (m : Spdm) (s : State) : Out :=
  .next
    (if mailboxUp s then
       let x := spdmEffect m s.cxl
       { s with cxl := { x with spdmAnswers := x.spdmAnswers + 1 } }
     else s)

/-! ## The HDM range (R212, R213, R226) -/

/-- Bytes of the tier range (R212). -/
def tierRange : Nat := 2 ^ 44
/-- Bytes of the HDM range (R213). -/
def hdmRange : Nat := 2 ^ 44 + 2 ^ 36

/-- The part of the HDM range that a byte lies in: a unit's frame with the unit and the offset in it, the rest of a unit, the
manifest region, the salvage area, the reserved end (R212, R213). -/
inductive HdmPlace where
  | frame (unit off : Nat)
  | rest (unit : Nat)
  | manifest (j : Nat)
  | salvage (k : Nat)
  | reserved
deriving DecidableEq, Repr

/-- Where an HDM offset lies. -/
def hdmPlace (off : Nat) : HdmPlace :=
  if off < tierRange then
    (if off % 32768 < slotSize then .frame (off / 32768) (off % 32768) else .rest (off / 32768))
  else
    let j := off - tierRange
    if j < 2 ^ 35 then .manifest j else if j < 36 * 2 ^ 30 then .salvage (j - 2 ^ 35) else .reserved

/-- Bytes from an HDM offset on that lie in one piece of one memory. -/
def hdmRun (off : Nat) : Nat :=
  if off < tierRange then
    (if off % 32768 < slotSize then slotSize - off % 32768 else 32768 - off % 32768)
  else 4096 - (off - tierRange) % 4096

/-- Columns of the table of R226. -/
inductive HdmMode where
  | idle | run | safe | lend
deriving DecidableEq, Repr

/-- The row of R226 that a state falls under; salvage follows the safe-state row (R360). -/
def hdmMode (st : DevState) : HdmMode :=
  match st with
  | .running => .run
  | .safe => .safe
  | .salvage => .safe
  | .lender => .lend
  | .scrubbing => .lend
  | _ => .idle

/-- Whether a host access reaches a unit (R226). -/
def reaches (s : State) (u : Nat) : Bool :=
  (mapAt s u).res &&
    (match hdmMode s.dev.st with
     | .idle => true
     | .run => hostAcc s u
     | .safe => false
     | .lend => false)

/-- The stack key of the byte at an offset of a resident unit's frame. -/
def frameKey (s : State) (u off : Nat) : Nat := slotKey (mapAt s u).stack (mapAt s u).slot + off

/-- Read stack bytes for the host: an uncorrectable granule poisons the read and is logged as event 0x0206 (R209). -/
def hostRead (key n : Nat) (s : State) : Option Bytes × State :=
  let r := readStack key n s
  if r.2.1 then
    let g := ((s.stackUpsets.find? (fun e => e.2 == 2 && decide (key / 16 ≤ e.1))).map Prod.fst).getD (key / 16)
    (none, logEvent 0x0206 0 atStack (g / 2 ^ 33) (toLe 1 (g / 2 ^ 33) ++ toLe 8 (g * 16 % 2 ^ 37)) r.2.2)
  else (some r.1, r.2.2)

/-- Read `n` bytes that lie in one piece (R226). -/
def readPiece (off n : Nat) (s : State) : Option Bytes × State :=
  match hdmPlace off with
  | .frame u o => if reaches s u then hostRead (frameKey s u o) n s else (none, s)
  | .rest u => if reaches s u then (some (zeros n), s) else (none, s)
  | .manifest j =>
    (match hdmMode s.dev.st with
     | .idle => hostRead (manifestKey j) n s
     | .lend => hostRead (manifestKey j) n s
     | .run => (none, s)
     | .safe => (none, s))
  | .salvage k => hostRead (salvageKey k) n s
  | .reserved => (none, s)

/-- Read a range piece by piece; none when any piece is poisoned. `fuel` bounds the pieces. -/
def readPieces : Nat → Nat → Nat → State → Option Bytes × State
  | 0, _, _, s => (some [], s)
  | fuel + 1, off, left, s =>
    if left = 0 then (some [], s)
    else
      let n := min left (hdmRun off)
      let r := readPiece off n s
      let q := readPieces fuel (off + n) (left - n) r.2
      (r.1.bind (fun a => q.1.map (fun b => a ++ b)), q.2)

/-- Whether CXL.mem decodes a range (R213, R326). -/
def decodes (s : State) (off n : Nat) : Bool := mailboxUp s && s.cxl.committed && decide (off + n ≤ hdmRange)

/-- The bytes a poisoned read carries: nothing states them (log entry 92). -/
def poisonBytes (n : Nat) (s : State) : Bytes × State :=
  ((List.range n).map (fun i => Config.free 8 (s.freeCount + i)), { s with freeCount := s.freeCount + n })

/-- HDM_READ: data, or data of the same length with the poison indication, which counts in TIER_POISON (R209, R226, R327). -/
def execHdmRead (off len : Nat) (s : State) : Out :=
  .next
    (if decodes s off len then
       let r := readPieces (len + 1) off len (applyWrites s)
       match r.1 with
       | some d => { r.2 with cxl := { r.2.cxl with hdmData := d, hdmPoison := false } }
       | none =>
         let p := poisonBytes len r.2
         { p.2 with cxl := { p.2.cxl with hdmData := p.1, hdmPoison := true },
                    tier := { p.2.tier with poison := satAdd p.2.tier.poison 1 } }
     else s)

/-- Write bytes that lie in one piece; false when they are dropped (R212, R225, R226). -/
def writePiece (off : Nat) (bs : Bytes) (s : State) : Bool × State :=
  match hdmPlace off with
  | .frame u o =>
    if reaches s u then (true, updMap u (fun e => { e with dirty := true }) (writeStack (frameKey s u o) bs s)) else (false, s)
  | .rest _ => (false, s)
  | .manifest j =>
    if hdmMode s.dev.st = .idle ∧ s.dev.loadOpen = true then (true, writeStack (manifestKey j) bs s) else (false, s)
  | .salvage _ => (false, s)
  | .reserved => (false, s)

/-- Write a range piece by piece; false when any piece is dropped. -/
def writePieces : Nat → Nat → Bytes → State → Bool × State
  | 0, _, _, s => (true, s)
  | fuel + 1, off, bs, s =>
    if bs.isEmpty then (true, s)
    else
      let r := writePiece off (bs.take (hdmRun off)) s
      let q := writePieces fuel (off + hdmRun off) (bs.drop (hdmRun off)) r.2
      (r.1 && q.1, q.2)

/-- HDM_WRITE: applied, or dropped, which counts in TIER_POISON (R225, R226, R327). -/
def execHdmWrite (off : Nat) (data : Bytes) (s : State) : Out :=
  .next
    (if decodes s off data.length then
       let r := writePieces (data.length + 1) off data (applyWrites s)
       if r.1 then r.2 else { r.2 with tier := { r.2.tier with drops := satAdd r.2.tier.drops 1 } }
     else s)

end Sys2Proof.Machine
end

