-- ==== Sys2Proof/Machine/MeshCmd.lean ====
section
/-! DEFINITION. The mesh commands: a flit at a router input, a landing slot, a gate's injection and extraction (R140,
R148 to R150). A router or gate acts once in an lc, so a command for one that has acted already in this lc waits for
the next (log entry 3). -/

namespace Sys2Proof.Machine

/-- Faults of the current lc, if any, freeze the lattice at its end (R206, R398). -/
def closeLc (r : State × List FaultRec) : State :=
  match r.2 with
  | [] => r.1
  | bad => endLc bad r.1

/-- Whether the router of a cluster has acted in the current lc. -/
def routerDone (c : Nat) (s : State) : Bool :=
  (clusterAt s c).pos.run && decide (s.lc < (clusterAt s c).pos.nextLc)

/-- The state in whose lc the router of a cluster acts next. -/
def routerLc (c : Nat) (s : State) : State := if routerDone c s then tick s else s

/-- Put a flit at a router input in the current lc, in place of any other. -/
def presentFlit (c : Nat) (inp : Dir) (f : Flit) (s : State) : State :=
  { s with wires := { dst := c, inp := inp, due := s.lc, flit := f, src := 0 } ::
      s.wires.filter (fun x => !(x.dst == c && x.inp == inp && x.due == s.lc)) }

/-- A flit as the receiving router takes it: out of a crossing with too small a margin it is a link error, whatever it carries
(R135, R375). -/
def crossingFlit (x : Crossing) : Flit := if x.lowMargin then { x.flit with side := x.flit.side ||| 0xC0000000 } else x.flit

/-- FLIT: a flit arrives at an input of a router, which applies its current entry to it (R134, R135, R138 to R141,
R149, R375). A flit at an input that has no link cannot occur (R133). -/
def execFlit (c : Nat) (inp : Dir) (f : Crossing) (s : State) : Out :=
  onPlace (isCluster c)
    (if latticeRuns s && inPresent c inp then
       let t := routerLc c s
       if latticeRuns t then closeLc (routerStep c t.lc (presentFlit c inp (crossingFlit f) t)) else t
     else s)

/-- Whether the entry a router applies next is a landing slot (R138, R150). -/
def atLandingSlot (c : Nat) (s : State) : Bool :=
  let cl := clusterAt s c
  cl.pos.run && slotLand (routeEntry cl cl.pos.bank cl.pos.entry)

/-- LANDING_WRITE: in a landing slot the router writes the complete row that completed earliest (R103, R104, R150,
R151). -/
def execLandingWrite (c : Nat) (s : State) : Out :=
  onPlace (isCluster c)
    (if latticeRuns s then
       let t := routerLc c s
       if latticeRuns t && atLandingSlot c t then closeLc (routerStep c t.lc t) else t
     else s)

/-- A gate of the configured manifest. -/
def gateAt (s : State) (g : GateId) : Option Gate := s.gates.find? (fun x => x.id == g)

/-- Whether a gate has acted in the current lc. -/
def gateDone (g : GateId) (s : State) : Bool :=
  match gateAt s g with
  | some x => x.pos.run && decide (s.lc < x.pos.nextLc)
  | none => false

/-- A gate acts in the current lc when its entry is of the kind a command names. -/
def gateCmd (g : GateId) (kind : Nat → Bool) (s : State) : State :=
  if latticeRuns s then
    let t := if gateDone g s then tick s else s
    match gateAt t g with
    | none => t
    | some x =>
      if latticeRuns t && kind (gateAct (gateEntry x x.pos.bank x.pos.entry)) then closeLc (gateStep t.lc (t, []) x) else t
  else s

/-- GATE_INJECT: a landing or data flit, or nothing, from the gate's buffer into the link slot (R148, R189). -/
def execGateInject (g : GateId) (s : State) : Out :=
  onPlace (gateExists g) (gateCmd g (fun a => a == 1 || a == 2) s)

/-- GATE_EXTRACT: a data flit from the link into the gate's extraction buffer (R148, R189, R223, R257). -/
def execGateExtract (g : GateId) (s : State) : Out :=
  onPlace (gateExists g) (gateCmd g (fun a => a == 3) s)

end Sys2Proof.Machine
end

