-- ==== Sys2Proof/Machine/Vector.lean ====
section
/-! DEFINITION. Vector arithmetic, comparison, selection, permutation, reduction and control (R60 to R64, R127). -/

namespace Sys2Proof.Machine

/-- FADD: VD := VA + VB, four lc. -/
def execFadd (c v : Nat) (vd va vb : BitVec 5) (m : BitVec 3) (s : State) : Out := fpOp2 c v vd va vb m 4 fadd32 s

/-- FSUB: VD := VA − VB. -/
def execFsub (c v : Nat) (vd va vb : BitVec 5) (m : BitVec 3) (s : State) : Out := fpOp2 c v vd va vb m 4 fsub32 s

/-- FMUL: VD := VA × VB. -/
def execFmul (c v : Nat) (vd va vb : BitVec 5) (m : BitVec 3) (s : State) : Out := fpOp2 c v vd va vb m 4 fmul32 s

/-- FMA: VD := VA × VB + VC, rounded once. -/
def execFma (c v : Nat) (vd va vb vc : BitVec 5) (m : BitVec 3) (s : State) : Out :=
  fpOp3 c v vd va vb vc m (fun a b x => (a.mul b).add x) s

/-- FMS: VD := VA × VB − VC. -/
def execFms (c v : Nat) (vd va vb vc : BitVec 5) (m : BitVec 3) (s : State) : Out :=
  fpOp3 c v vd va vb vc m (fun a b x => (a.mul b).add x.neg) s

/-- FNMA: VD := −(VA × VB) + VC. -/
def execFnma (c v : Nat) (vd va vb vc : BitVec 5) (m : BitVec 3) (s : State) : Out :=
  fpOp3 c v vd va vb vc m (fun a b x => (a.mul b).neg.add x) s

/-- FNMS: VD := −(VA × VB) − VC. -/
def execFnms (c v : Nat) (vd va vb vc : BitVec 5) (m : BitVec 3) (s : State) : Out :=
  fpOp3 c v vd va vb vc m (fun a b x => (a.mul b).neg.add x.neg) s

/-- FMIN: IEEE 754 minimum, two lc. -/
def execFmin (c v : Nat) (vd va vb : BitVec 5) (m : BitVec 3) (s : State) : Out := fpOp2 c v vd va vb m 2 fmin32 s

/-- FMAX: IEEE 754 maximum. -/
def execFmax (c v : Nat) (vd va vb : BitVec 5) (m : BitVec 3) (s : State) : Out := fpOp2 c v vd va vb m 2 fmax32 s

/-- FABS: clears bit 31 of each lane; counts nothing (R63). -/
def execFabs (c v : Nat) (vd va : BitVec 5) (m : BitVec 3) (s : State) : Out :=
  bitOp c v vd m 2 (fun w l => lane (vr v w va) l &&& 0x7FFFFFFF) s

/-- FNEG: flips bit 31 of each lane; counts nothing (R63). -/
def execFneg (c v : Nat) (vd va : BitVec 5) (m : BitVec 3) (s : State) : Out :=
  bitOp c v vd m 2 (fun w l => lane (vr v w va) l ^^^ 0x80000000) s

/-- A comparison into a mask register, two lc; a reserved function or VD[4:3] not zero is illegal (R127). -/
def cmpOp (c v : Nat) (vd va vb : BitVec 5) (m : BitVec 3) (p : W32 → W32 → Option Bool) (s : State) : Out :=
  vecCmd c v (fun now w =>
    if 8 ≤ vd.toNat ∨ (p 0 0).isNone = true then vecIllegal c v w
    else
      putM c (now + 2) v vd.toNat
        (maskBits (fun l => (p (lane (vr v w va) l) (lane (vr v w vb) l)).getD false)) (vm v w m) w) s

/-- FCMP: EQ, LT, LE, NE, UNORD (R127). -/
def execFcmp (c v : Nat) (vd va vb : BitVec 5) (m : BitVec 3) (fn : BitVec 8) (s : State) : Out :=
  cmpOp c v vd va vb m (fcmp32 fn.toNat) s

/-- The comparisons of ICMP: EQ, LT, LTU, NE (R127). -/
def icmp32 (fn : Nat) (a b : W32) : Option Bool :=
  match fn with
  | 0 => some (a == b)
  | 1 => some (a.slt b)
  | 2 => some (a.ult b)
  | 3 => some (a != b)
  | _ => none

/-- SEL: VD := VA where m[VC[2:0]] is 1, otherwise VB; VC[4:3] not zero is illegal (R127). -/
def execSel (c v : Nat) (vd va vb vc : BitVec 5) (m : BitVec 3) (s : State) : Out :=
  vecCmd c v (fun now w =>
    if 8 ≤ vc.toNat then vecIllegal c v w
    else
      putV c (now + 2) v vd.toNat (mkLanes (fun l =>
        if (readM v vc.toNat w.cl).getLsbD l then lane (vr v w va) l else lane (vr v w vb) l)) (vm v w m) w) s

/-- IADD. -/
def execIadd (c v : Nat) (vd va vb : BitVec 5) (m : BitVec 3) (s : State) : Out := intOp c v vd va vb m (· + ·) s

/-- ISUB. -/
def execIsub (c v : Nat) (vd va vb : BitVec 5) (m : BitVec 3) (s : State) : Out := intOp c v vd va vb m (· - ·) s

/-- IAND. -/
def execIand (c v : Nat) (vd va vb : BitVec 5) (m : BitVec 3) (s : State) : Out := intOp c v vd va vb m (· &&& ·) s

/-- IOR. -/
def execIor (c v : Nat) (vd va vb : BitVec 5) (m : BitVec 3) (s : State) : Out := intOp c v vd va vb m (· ||| ·) s

/-- IXOR. -/
def execIxor (c v : Nat) (vd va vb : BitVec 5) (m : BitVec 3) (s : State) : Out := intOp c v vd va vb m (· ^^^ ·) s

/-- ISHL: shift by VB[4:0]. -/
def execIshl (c v : Nat) (vd va vb : BitVec 5) (m : BitVec 3) (s : State) : Out :=
  intOp c v vd va vb m (fun a b => a <<< (b.toNat % 32)) s

/-- ISHR, logical: shift by VB[4:0]. -/
def execIshr (c v : Nat) (vd va vb : BitVec 5) (m : BitVec 3) (s : State) : Out :=
  intOp c v vd va vb m (fun a b => a >>> (b.toNat % 32)) s

/-- ISAR, arithmetic: shift by VB[4:0]. -/
def execIsar (c v : Nat) (vd va vb : BitVec 5) (m : BitVec 3) (s : State) : Out :=
  intOp c v vd va vb m (fun a b => a.sshiftRight (b.toNat % 32)) s

/-- ICMP (R127). -/
def execIcmp (c v : Nat) (vd va vb : BitVec 5) (m : BitVec 3) (fn : BitVec 8) (s : State) : Out :=
  cmpOp c v vd va vb m (icmp32 fn.toNat) s

/-- WADD: 48-bit sum of register pairs. -/
def execWadd (c v : Nat) (vd va vb : BitVec 5) (m : BitVec 3) (s : State) : Out := wideOp c v vd va vb m (· + ·) s

/-- WSUB: 48-bit difference of register pairs. -/
def execWsub (c v : Nat) (vd va vb : BitVec 5) (m : BitVec 3) (s : State) : Out := wideOp c v vd va vb m (· - ·) s

/-- A permutation with its reserved codes, three lc (R60, R127). -/
def permOp (c v : Nat) (vd va : BitVec 5) (m : BitVec 3) (ok : Bool) (f : Lanes → Nat → W32) (s : State) : Out :=
  vecCmd c v (fun now w =>
    if ok then putV c (now + 3) v vd.toNat (mkLanes (f (vr v w va))) (vm v w m) w else vecIllegal c v w) s

/-- BCAST: lane FN[4:0] of VA in every lane; FN[7:5] not zero is illegal. -/
def execBcast (c v : Nat) (vd va : BitVec 5) (m : BitVec 3) (fn : BitVec 8) (s : State) : Out :=
  permOp c v vd va m (decide (fn.toNat < 32)) (fun x _ => lane x fn.toNat) s

/-- Source lane of a fixed permutation: reverse, or the swap of adjacent groups of 2^(fn-1) lanes (R63, R127). -/
def permLane (fn l : Nat) : Nat := if fn = 0 then 31 - l else l ^^^ (2 ^ (fn - 1))

/-- PERM: FN 0 to 5; the others are illegal. -/
def execPerm (c v : Nat) (vd va : BitVec 5) (m : BitVec 3) (fn : BitVec 8) (s : State) : Out :=
  permOp c v vd va m (decide (fn.toNat ≤ 5)) (fun x l => lane x (permLane fn.toNat l)) s

/-- UNPK: the 32 halves of 16 lanes, lower half first, to bits [31:16]; FN[7:1] not zero is illegal. -/
def execUnpk (c v : Nat) (vd va : BitVec 5) (m : BitVec 3) (fn : BitVec 8) (s : State) : Out :=
  permOp c v vd va m (decide (fn.toNat < 2)) (fun x l =>
    ((lane x (16 * fn.toNat + l / 2)) >>> (16 * (l % 2))) <<< 16) s

/-- RSUM: lane-tree sum into lane 0; masked lanes enter as +0. -/
def execRsum (c v : Nat) (vd va : BitVec 5) (m : BitVec 3) (s : State) : Out := reduceOp c v vd va m 0 fadd32 s

/-- RMIN: masked lanes enter as +infinity. -/
def execRmin (c v : Nat) (vd va : BitVec 5) (m : BitVec 3) (s : State) : Out := reduceOp c v vd va m 0x7F800000 fmin32 s

/-- RMAX: masked lanes enter as −infinity. -/
def execRmax (c v : Nat) (vd va : BitVec 5) (m : BitVec 3) (s : State) : Out := reduceOp c v vd va m 0xFF800000 fmax32 s

/-- LI: every lane := imm, two lc. -/
def execLi (c v : Nat) (vd : BitVec 5) (m : BitVec 3) (imm : W32) (s : State) : Out :=
  bitOp c v vd m 2 (fun _ _ => imm) s

/-- REP: repeat the block of LEN + 1 instructions that follows n times; none when n is zero; nested REP is reserved
(R62). -/
def execRep (c v : Nat) (len : BitVec 4) (n : BitVec 16) (s : State) : Out :=
  onPlace (vecExists c v) (issueVec c v (fun _ w =>
    let x := vecCore v w.cl
    let stop := x.pc + 8 + 8 * (len.toNat + 1)
    if 0 < x.repLeft then vecIllegal c v w
    else if n = 0 then w.on (updVec v (fun x => { x with pc := stop }))
    else w.on (updVec v (fun x =>
      { x with pc := x.pc + 8, repLeft := n.toNat, repStart := x.pc + 8, repStop := stop, repIter := 0 }))) s)

/-- END: the vector core idles until S0 starts it again (R60). -/
def execVectorEnd (c v : Nat) (s : State) : Out :=
  onPlace (vecExists c v) (issueVec c v (fun _ w => w.on (updVec v (fun x => { x with st := .stopped, repLeft := 0 }))) s)

end Sys2Proof.Machine
end

