-- ==== Sys2Proof/Machine/Dispatch.lean ====
section
/-! DEFINITION. The effect of each command: one direct call of its meaning. -/

namespace Sys2Proof.Machine

def exec (i : Instr) (s : State) : Host.Outcome State Fault Refusal :=
  match i with
  | .coldStart o => Sys2Proof.Machine.execColdStart o s
  | .powerDown => Sys2Proof.Machine.execPowerDown s
  | .feedLoss f mv => Sys2Proof.Machine.execFeedLoss f mv s
  | .feedConnect f mv => Sys2Proof.Machine.execFeedConnect f mv s
  | .feedOvervoltage f mv => Sys2Proof.Machine.execFeedOvervoltage f mv s
  | .feedUndervoltage mvA mvB => Sys2Proof.Machine.execFeedUndervoltage mvA mvB s
  | .powerRemoval mvA mvB => Sys2Proof.Machine.execPowerRemoval mvA mvB s
  | .flashPgmN asserted prog o => Sys2Proof.Machine.execFlashPgmN asserted prog o s
  | .hallReferenceChange present inTolerance => Sys2Proof.Machine.execHallReferenceChange present inTolerance s
  | .htimeFrame bits codeOk => Sys2Proof.Machine.execHtimeFrame bits codeOk s
  | .htimeTimeout => Sys2Proof.Machine.execHtimeTimeout s
  | .sensorSample rs => Sys2Proof.Machine.execSensorSample rs s
  | .sensorSilent k => Sys2Proof.Machine.execSensorSilent k s
  | .supplyFault field how => Sys2Proof.Machine.execSupplyFault field how s
  | .watchdog => Sys2Proof.Machine.execWatchdog s
  | .cableInsert p => Sys2Proof.Machine.execCableInsert p s
  | .cableRemoval p => Sys2Proof.Machine.execCableRemoval p s
  | .perstNRelease channel => Sys2Proof.Machine.execPerstNRelease channel s
  | .hotReset => Sys2Proof.Machine.execHotReset s
  | .functionLevelReset => Sys2Proof.Machine.execFunctionLevelReset s
  | .hostLinkLoss => Sys2Proof.Machine.execHostLinkLoss s
  | .hdmCommit ways hdmH => Sys2Proof.Machine.execHdmCommit ways hdmH s
  | .spdmMessage m => Sys2Proof.Machine.execSpdmMessage m s
  | .hdmRead off len => Sys2Proof.Machine.execHdmRead off len s
  | .hdmWrite off data => Sys2Proof.Machine.execHdmWrite off data s
  | .hold v => Sys2Proof.Machine.execHold v s
  | .relayDis v => Sys2Proof.Machine.execRelayDis v s
  | .gearReqClear v => Sys2Proof.Machine.execGearReqClear v s
  | .gearDropClear v => Sys2Proof.Machine.execGearDropClear v s
  | .frameErrRead => Sys2Proof.Machine.execFrameErrRead s
  | .regWrite place value => Sys2Proof.Machine.execRegWrite place value s
  | .identify => Sys2Proof.Machine.execIdentify s
  | .backgroundOperationStatus => Sys2Proof.Machine.execBackgroundOperationStatus s
  | .getEventRecords => Sys2Proof.Machine.execGetEventRecords s
  | .clearEventRecords => Sys2Proof.Machine.execClearEventRecords s
  | .getTimestamp => Sys2Proof.Machine.execGetTimestamp s
  | .setTimestamp t => Sys2Proof.Machine.execSetTimestamp t s
  | .getSupportedLogs => Sys2Proof.Machine.execGetSupportedLogs s
  | .getLog place len => Sys2Proof.Machine.execGetLog place len s
  | .identifyMemoryDevice => Sys2Proof.Machine.execIdentifyMemoryDevice s
  | .unsupported opcode => Sys2Proof.Machine.execUnsupported opcode s
  | .mapRead => Sys2Proof.Machine.execMapRead s
  | .load pl => Sys2Proof.Machine.execLoad pl s
  | .verify => Sys2Proof.Machine.execVerify s
  | .verifyDone => Sys2Proof.Machine.execVerifyDone s
  | .configure => Sys2Proof.Machine.execConfigure s
  | .configureDone => Sys2Proof.Machine.execConfigureDone s
  | .relief pl => Sys2Proof.Machine.execRelief pl s
  | .reliefDone => Sys2Proof.Machine.execReliefDone s
  | .run pl => Sys2Proof.Machine.execRun pl s
  | .weirRelease pl => Sys2Proof.Machine.execWeirRelease pl s
  | .freeze => Sys2Proof.Machine.execFreeze s
  | .warmStart pl => Sys2Proof.Machine.execWarmStart pl s
  | .contWarm => Sys2Proof.Machine.execContWarm s
  | .warmStartDone o => Sys2Proof.Machine.execWarmStartDone o s
  | .readback pl => Sys2Proof.Machine.execReadback pl s
  | .readbackDone => Sys2Proof.Machine.execReadbackDone s
  | .attest pl => Sys2Proof.Machine.execAttest pl s
  | .attestDone => Sys2Proof.Machine.execAttestDone s
  | .setIdentity pl => Sys2Proof.Machine.execSetIdentity pl s
  | .lend pl => Sys2Proof.Machine.execLend pl s
  | .endLend => Sys2Proof.Machine.execEndLend s
  | .scrubComplete => Sys2Proof.Machine.execScrubComplete s
  | .shadowGuard pl => Sys2Proof.Machine.execShadowGuard pl s
  | .setQuota pl => Sys2Proof.Machine.execSetQuota pl s
  | .migPost pl => Sys2Proof.Machine.execMigPost pl s
  | .migStatus pl => Sys2Proof.Machine.execMigStatus pl s
  | .tqPost pl => Sys2Proof.Machine.execTqPost pl s
  | .sluiceOpen pl => Sys2Proof.Machine.execSluiceOpen pl s
  | .sluiceClose pl => Sys2Proof.Machine.execSluiceClose pl s
  | .keyLoad pl => Sys2Proof.Machine.execKeyLoad pl s
  | .portReset pl => Sys2Proof.Machine.execPortReset pl s
  | .timeOffsetSet pl => Sys2Proof.Machine.execTimeOffsetSet pl s
  | .logRead pl => Sys2Proof.Machine.execLogRead pl s
  | .bgResult => Sys2Proof.Machine.execBgResult s
  | .alu c k rd rs1 rs2 fn => Sys2Proof.Machine.execAlu c k rd rs1 rs2 fn s
  | .addi c k rd rs1 imm => Sys2Proof.Machine.execAddi c k rd rs1 imm s
  | .andi c k rd rs1 imm => Sys2Proof.Machine.execAndi c k rd rs1 imm s
  | .ori c k rd rs1 imm => Sys2Proof.Machine.execOri c k rd rs1 imm s
  | .xori c k rd rs1 imm => Sys2Proof.Machine.execXori c k rd rs1 imm s
  | .shi c k rd rs1 imm => Sys2Proof.Machine.execShi c k rd rs1 imm s
  | .movk c k rd q imm => Sys2Proof.Machine.execMovk c k rd q imm s
  | .beq c k rs1 rs2 off => Sys2Proof.Machine.execBeq c k rs1 rs2 off s
  | .bne c k rs1 rs2 off => Sys2Proof.Machine.execBne c k rs1 rs2 off s
  | .blt c k rs1 rs2 off => Sys2Proof.Machine.execBlt c k rs1 rs2 off s
  | .bge c k rs1 rs2 off => Sys2Proof.Machine.execBge c k rs1 rs2 off s
  | .bltu c k rs1 rs2 off => Sys2Proof.Machine.execBltu c k rs1 rs2 off s
  | .bgeu c k rs1 rs2 off => Sys2Proof.Machine.execBgeu c k rs1 rs2 off s
  | .jmp c k off => Sys2Proof.Machine.execJmp c k off s
  | .call c k off => Sys2Proof.Machine.execCall c k off s
  | .ret c k => Sys2Proof.Machine.execRet c k s
  | .loop c k rs len => Sys2Proof.Machine.execLoop c k rs len s
  | .wait c k imm => Sys2Proof.Machine.execWait c k imm s
  | .waitr c k rs => Sys2Proof.Machine.execWaitr c k rs s
  | .mop c core idx sub areg => Sys2Proof.Machine.execMop c core idx sub areg s
  | .vstart c vc vaddr => Sys2Proof.Machine.execVstart c vc vaddr s
  | .s1start c saddr => Sys2Proof.Machine.execS1start c saddr s
  | .weir c w rly sent => Sys2Proof.Machine.execWeir c w rly sent s
  | .stop c => Sys2Proof.Machine.execStop c s
  | .lda c rd aBase rb raw half off => Sys2Proof.Machine.execLda c rd aBase rb raw half off s
  | .stn c rs aBase rb off => Sys2Proof.Machine.execStn c rs aBase rb off s
  | .aop c ad as_ fn imm => Sys2Proof.Machine.execAop c ad as_ fn imm s
  | .mova c ad rs => Sys2Proof.Machine.execMova c ad rs s
  | .tload c vc deriv aBase rb => Sys2Proof.Machine.execTload c vc deriv aBase rb s
  | .gload c vc aBase rb => Sys2Proof.Machine.execGload c vc aBase rb s
  | .s1End c => Sys2Proof.Machine.execS1End c s
  | .fadd c v vd va vb m => Sys2Proof.Machine.execFadd c v vd va vb m s
  | .fsub c v vd va vb m => Sys2Proof.Machine.execFsub c v vd va vb m s
  | .fmul c v vd va vb m => Sys2Proof.Machine.execFmul c v vd va vb m s
  | .fma c v vd va vb vc m => Sys2Proof.Machine.execFma c v vd va vb vc m s
  | .fms c v vd va vb vc m => Sys2Proof.Machine.execFms c v vd va vb vc m s
  | .fnma c v vd va vb vc m => Sys2Proof.Machine.execFnma c v vd va vb vc m s
  | .fnms c v vd va vb vc m => Sys2Proof.Machine.execFnms c v vd va vb vc m s
  | .fmin c v vd va vb m => Sys2Proof.Machine.execFmin c v vd va vb m s
  | .fmax c v vd va vb m => Sys2Proof.Machine.execFmax c v vd va vb m s
  | .fabs c v vd va m => Sys2Proof.Machine.execFabs c v vd va m s
  | .fneg c v vd va m => Sys2Proof.Machine.execFneg c v vd va m s
  | .fcmp c v vd va vb m fn => Sys2Proof.Machine.execFcmp c v vd va vb m fn s
  | .sel c v vd va vb vc m => Sys2Proof.Machine.execSel c v vd va vb vc m s
  | .iadd c v vd va vb m => Sys2Proof.Machine.execIadd c v vd va vb m s
  | .isub c v vd va vb m => Sys2Proof.Machine.execIsub c v vd va vb m s
  | .iand c v vd va vb m => Sys2Proof.Machine.execIand c v vd va vb m s
  | .ior c v vd va vb m => Sys2Proof.Machine.execIor c v vd va vb m s
  | .ixor c v vd va vb m => Sys2Proof.Machine.execIxor c v vd va vb m s
  | .ishl c v vd va vb m => Sys2Proof.Machine.execIshl c v vd va vb m s
  | .ishr c v vd va vb m => Sys2Proof.Machine.execIshr c v vd va vb m s
  | .isar c v vd va vb m => Sys2Proof.Machine.execIsar c v vd va vb m s
  | .icmp c v vd va vb m fn => Sys2Proof.Machine.execIcmp c v vd va vb m fn s
  | .wadd c v vd va vb m => Sys2Proof.Machine.execWadd c v vd va vb m s
  | .wsub c v vd va vb m => Sys2Proof.Machine.execWsub c v vd va vb m s
  | .bcast c v vd va m fn => Sys2Proof.Machine.execBcast c v vd va m fn s
  | .perm c v vd va m fn => Sys2Proof.Machine.execPerm c v vd va m fn s
  | .unpk c v vd va m fn => Sys2Proof.Machine.execUnpk c v vd va m fn s
  | .rsum c v vd va m => Sys2Proof.Machine.execRsum c v vd va m s
  | .rmin c v vd va m => Sys2Proof.Machine.execRmin c v vd va m s
  | .rmax c v vd va m => Sys2Proof.Machine.execRmax c v vd va m s
  | .teval c v vd va m fn => Sys2Proof.Machine.execTeval c v vd va m fn s
  | .tgrad c v vd va vb m fn => Sys2Proof.Machine.execTgrad c v vd va vb m fn s
  | .cvt c v vd va m src dst rm => Sys2Proof.Machine.execCvt c v vd va m src dst rm s
  | .cvtmx c v vd va vc m dst rm => Sys2Proof.Machine.execCvtmx c v vd va vc m dst rm s
  | .cvtxf c v vd va vb m src => Sys2Proof.Machine.execCvtxf c v vd va vb m src s
  | .cvtg c v vd va vb m => Sys2Proof.Machine.execCvtg c v vd va vb m s
  | .cvts c v vd va m => Sys2Proof.Machine.execCvts c v vd va m s
  | .cvtsf c v vd va m => Sys2Proof.Machine.execCvtsf c v vd va m s
  | .scnt c v vd va vb vc sreg m => Sys2Proof.Machine.execScnt c v vd va vb vc sreg m s
  | .dbegin c v va => Sys2Proof.Machine.execDbegin c v va s
  | .dfold c v va => Sys2Proof.Machine.execDfold c v va s
  | .dfoldt c v va cnt => Sys2Proof.Machine.execDfoldt c v va cnt s
  | .dend c v => Sys2Proof.Machine.execDend c v s
  | .dread c v x => Sys2Proof.Machine.execDread c v x s
  | .dclr c v => Sys2Proof.Machine.execDclr c v s
  | .gst c v x => Sys2Proof.Machine.execGst c v x s
  | .gdraw c v vd m adv => Sys2Proof.Machine.execGdraw c v vd m adv s
  | .gdrawi c v vd va m => Sys2Proof.Machine.execGdrawi c v vd va m s
  | .ld c v vd m x => Sys2Proof.Machine.execLd c v vd m x s
  | .st c v va x => Sys2Proof.Machine.execSt c v va x s
  | .pop c v vd m half => Sys2Proof.Machine.execPop c v vd m half s
  | .push c v va => Sys2Proof.Machine.execPush c v va s
  | .li c v vd m imm => Sys2Proof.Machine.execLi c v vd m imm s
  | .rep c v len n => Sys2Proof.Machine.execRep c v len n s
  | .vectorEnd c v => Sys2Proof.Machine.execVectorEnd c v s
  | .flit c inp f => Sys2Proof.Machine.execFlit c inp f s
  | .landingWrite c => Sys2Proof.Machine.execLandingWrite c s
  | .gateInject g => Sys2Proof.Machine.execGateInject g s
  | .gateExtract g => Sys2Proof.Machine.execGateExtract g s
  | .arrive c w => Sys2Proof.Machine.execArrive c w s
  | .landed c w => Sys2Proof.Machine.execLanded c w s
  | .conditionLatch deferred ix => Sys2Proof.Machine.execConditionLatch deferred ix s
  | .release => Sys2Proof.Machine.execRelease s
  | .sluiceDrained d ix => Sys2Proof.Machine.execSluiceDrained d ix s
  | .resume => Sys2Proof.Machine.execResume s
  | .sentinelRoutine c hash => Sys2Proof.Machine.execSentinelRoutine c hash s
  | .relayEligible => Sys2Proof.Machine.execRelayEligible s
  | .relayChoice => Sys2Proof.Machine.execRelayChoice s
  | .digestRead ix => Sys2Proof.Machine.execDigestRead ix s
  | .weirDeadline => Sys2Proof.Machine.execWeirDeadline s
  | .runEnd => Sys2Proof.Machine.execRunEnd s
  | .pcsLock p => Sys2Proof.Machine.execPcsLock p s
  | .linkInit p frame => Sys2Proof.Machine.execLinkInit p frame s
  | .portFlit p bytes badCodeword => Sys2Proof.Machine.execPortFlit p bytes badCodeword s
  | .replayTimeout p ch => Sys2Proof.Machine.execReplayTimeout p ch s
  | .retrainComplete p => Sys2Proof.Machine.execRetrainComplete p s
  | .portDown p => Sys2Proof.Machine.execPortDown p s
  | .auditSend p lane => Sys2Proof.Machine.execAuditSend p lane s
  | .audit p frame => Sys2Proof.Machine.execAudit p frame s
  | .cease p frame => Sys2Proof.Machine.execCease p frame s
  | .marker p frame => Sys2Proof.Machine.execMarker p frame s
  | .digest p frame => Sys2Proof.Machine.execDigest p frame s
  | .commitAck p frame => Sys2Proof.Machine.execCommitAck p frame s
  | .tile p vl frame => Sys2Proof.Machine.execTile p vl frame s
  | .landingBufferReserve d => Sys2Proof.Machine.execLandingBufferReserve d s
  | .shardReq p vl frame => Sys2Proof.Machine.execShardReq p vl frame s
  | .homeRead p vl frame => Sys2Proof.Machine.execHomeRead p vl frame s
  | .homeWrite p vl frame => Sys2Proof.Machine.execHomeWrite p vl frame s
  | .homeData p vl frame => Sys2Proof.Machine.execHomeData p vl frame s
  | .shardCheck d => Sys2Proof.Machine.execShardCheck d s
  | .descriptorStart q => Sys2Proof.Machine.execDescriptorStart q s
  | .descriptorComplete q tag => Sys2Proof.Machine.execDescriptorComplete q tag s
  | .timeout q tag => Sys2Proof.Machine.execTimeout q tag s
  | .fetch host home => Sys2Proof.Machine.execFetch host home s
  | .evict host acked => Sys2Proof.Machine.execEvict host acked s
  | .writeback host acked => Sys2Proof.Machine.execWriteback host acked s
  | .drop host => Sys2Proof.Machine.execDrop host s
  | .alloc host => Sys2Proof.Machine.execAlloc host s
  | .move host => Sys2Proof.Machine.execMove host s
  | .bind host => Sys2Proof.Machine.execBind host s
  | .unbind host => Sys2Proof.Machine.execUnbind host s
  | .stagingRead stack list => Sys2Proof.Machine.execStagingRead stack list s
  | .store stack list => Sys2Proof.Machine.execStore stack list s
  | .addF32 stack list => Sys2Proof.Machine.execAddF32 stack list s
  | .addI64 stack list => Sys2Proof.Machine.execAddI64 stack list s
  | .busOrHubSupplyFault => Sys2Proof.Machine.execBusOrHubSupplyFault s
  | .thermalHistoryRecord => Sys2Proof.Machine.execThermalHistoryRecord s

end Sys2Proof.Machine
end

