-- ==== Sys2Proof/Machine/HostSpace.lean ====
section
/-! DEFINITION. What the host finds in configuration space and in BAR0: identity, DVSECs, the component and memory-device
registers, the mailbox registers, the Damust block and MSI-X (R325 to R329, R337). -/

namespace Sys2Proof.Machine

/-! ## Configuration space (R325) -/

/-- The header of a DVSEC: vendor and identifier (R325). -/
structure DvsecId where
  vendor : Nat
  id : Nat
deriving DecidableEq, Repr

/-- The PCIe DVSEC for CXL devices (R325). -/
structure DeviceDvsec where
  header : DvsecId
  cacheCapable : Bool
  ioCapable : Bool
  memCapable : Bool
  hdmCount : Nat
  memHwInitMode : Bool
  range1Size : Nat
  memoryInfoValid : Bool
  memoryActive : Bool
deriving DecidableEq, Repr

/-- The flex-bus port DVSEC (R325). -/
structure PortDvsec where
  header : DvsecId
  io : Bool
  mem : Bool
  flit68 : Bool
  flit256 : Bool
deriving DecidableEq, Repr

/-- An entry of the register locator: BAR0 offset and block identifier, and for a vendor's block its vendor and vendor block
(R325). -/
structure Locator where
  offset : Nat
  block : Nat
  vendorBlock : Option (Nat × Nat)
deriving DecidableEq, Repr

/-- The register locator DVSEC (R325). -/
structure LocatorDvsec where
  header : DvsecId
  entries : List Locator
deriving DecidableEq, Repr

/-- The Damust module DVSEC: DEV_ID and DEV_INFO (R325). -/
structure ModuleDvsec where
  header : DvsecId
  devId : Nat
  devInfo : Nat
deriving DecidableEq, Repr

/-- A base address register: its assigned address, size, width and whether it is prefetchable (R325). -/
structure BaseReg where
  addr : Nat
  size : Nat
  wide : Bool
  prefetchable : Bool
deriving DecidableEq, Repr

/-- The identity, BARs and DVSECs of the function (R325): BAR0 takes the place of BAR1, and BAR2 to BAR5 are not
implemented. -/
structure ConfigSpace where
  classCode : Nat
  vendor : Nat
  device : Nat
  bar0 : BaseReg
  /-- BAR2 to BAR5. -/
  bars : List (Option BaseReg)
  vectors : Nat
  cxlDevice : DeviceDvsec
  flexBus : PortDvsec
  locator : LocatorDvsec
  damust : ModuleDvsec
deriving DecidableEq, Repr

/-- What configuration space holds (R325, R326). -/
def configSpace (s : State) : ConfigSpace :=
  { classCode := 0x050210, vendor := Config.vendorId.toNat, device := 0xB207,
    bar0 := { addr := s.cxl.bar0.toNat, size := 2 ^ 20, wide := true, prefetchable := false },
    bars := List.replicate 4 none, vectors := 4,
    cxlDevice :=
      { header := { vendor := 0x1E98, id := 0x0000 }, cacheCapable := false, ioCapable := true, memCapable := true, hdmCount := 1, memHwInitMode := false,
        range1Size := 0x101000000000, memoryInfoValid := true, memoryActive := decide (9 ≤ s.dev.startStep) },
    flexBus := { header := { vendor := 0x1E98, id := 0x0007 }, io := true, mem := true, flit68 := true, flit256 := true },
    locator :=
      { header := { vendor := 0x1E98, id := 0x0008 },
        entries :=
          [{ offset := 0, block := 1, vendorBlock := none }, { offset := 0x10000, block := 3, vendorBlock := none },
           { offset := 0x40000, block := 0xFF, vendorBlock := some (Config.vendorId.toNat, 0x0001) }] },
    damust :=
      { header := { vendor := Config.vendorId.toNat, id := 0x0001 }, devId := s.dev.physId.toNat, devInfo := devInfo s } }

/-! ## BAR0 (R328, R329) -/

/-- The 64-bit registers of the Damust block (R329). -/
def damustWide : List Nat :=
  [0x0000, 0x0008, 0x0018, 0x0100, 0x0200, 0x0208, 0x0280, 0x0288, 0x0308, 0x0408, 0x0410, 0x0418, 0x0420]

/-- The 4 bytes at an offset of the Damust block: a register, or the upper half of a 64-bit one (R329). -/
def damustDword (off : Nat) (s : State) : Nat :=
  if 4 ≤ off ∧ damustWide.contains (off - 4) = true then damustReg (off - 4) s / 2 ^ 32 % 2 ^ 32 else damustReg off s % 2 ^ 32

/-- One entry of the memory-device capabilities array, its offset counted from 0x1_0000 (layout of CXL 3.1: log entry 91). -/
def capability (id off len : Nat) : List Nat := [id + 2 ^ 16, off, len, 0]

/-- The memory-device capabilities array: device status, primary mailbox, memory-device status (R328; log entry 91). -/
def capabilities : List Nat :=
  [2 ^ 16 + 2 ^ 24, 3, 0, 0] ++ capability 1 0x100 0x100 ++ capability 2 0x10000 0x10020 ++ capability 0x4000 0x200 0x100

/-- The mailbox registers: capabilities with Payload Size 16, control with the doorbell free, command, status, background
status (R337; places of CXL 3.1: log entry 91). -/
def mailboxRegs (s : State) : Bytes :=
  let b := s.mbx.bg
  toLe 4 (16 + 2 ^ 5 + 2 ^ 6) ++ toLe 4 0 ++ toLe 8 (s.mbx.opcode + s.mbx.out.length * 2 ^ 16) ++
    toLe 8 (b2n b.isSome + s.mbx.rc * 2 ^ 32) ++
    toLe 8
      (match b with
       | some c => bgOpcode c + (Config.free 7 s.freeCount).toNat * 2 ^ 16
       | none => s.mbx.bgRes.opcode + 100 * 2 ^ 16 + returnCode s.mbx.bgRes.dstatus * 2 ^ 32)

/-- The mailbox registers and payload as bytes (R328). -/
def mailboxBytes (s : State) : Bytes := mailboxRegs s ++ s.mbx.out

/-- The bytes of an MSI-X entry (log entry 91). -/
def msixBytes (e : MsixEntry) : Bytes := toLe 8 e.addr.toNat ++ toLe 4 e.data.toNat ++ toLe 4 (b2n e.masked)

/-- The pending-bit array (R328). -/
def pendingBits (x : Cxl) : Nat := (List.range 4).foldr (fun v n => b2n (x.msixPending.getD v false) + 2 * n) 0

/-- What the component registers may show: decoder, CXL.cachemem IDE and link (R322, R324, R326). -/
def componentView (x : Cxl) : List Nat :=
  [b2n x.committed, b2n x.decErr, b2n x.memIde, x.mode.lanes, x.mode.rate, x.mode.flit]

/-- The 4 bytes at an offset of BAR0; reserved space reads zero (R328, R329). -/
def bar0Dword (off : Nat) (s : State) : Nat :=
  if off < 0x1000 then 0
  else if off < 0x10000 then (Config.componentReg off (componentView s.cxl)).toNat
  else if off < 0x10100 then capabilities.getD ((off - 0x10000) / 4) 0
  else if off < 0x10200 then 0
  else if off < 0x10208 then (Config.memDevStatus (stateCode s.dev.st)).toNat / 2 ^ (8 * (off - 0x10200)) % 2 ^ 32
  else if off < 0x20000 then 0
  else if off < 0x30020 then fieldB (mailboxBytes s) (off - 0x20000) 4
  else if off < 0x40000 then 0
  else if off < 0x50000 then damustDword (off - 0x40000) s
  else if off < 0x50040 then fieldB (s.cxl.msixTable.flatMap msixBytes) (off - 0x50000) 4
  else if off = 0x51000 then pendingBits s.cxl
  else 0

/-- A read of 4 or 8 bytes of BAR0 (R329). -/
def bar0Read (off width : Nat) (s : State) : Nat :=
  bar0Dword off s + (if width = 8 then bar0Dword (off + 4) s * 2 ^ 32 else 0)

end Sys2Proof.Machine
end

