-- ==== Sys2Proof/Safety.lean ====
section
/-! DEFINITION. What counts as a safe step and as a well-kept state, and the terms in which the statements of
Certificates/Slice0/Obligations.lean speak of the machine: when an instruction can issue, and the state that the rules
give after it. -/

namespace Sys2Proof.Machine

/-- A step that answers a next state: no fault and no refusal of the model. -/
def goesOn (s : State) : Prop := ∃ t, step s = .next t

/-- The engine is in the safe state (R331, R335). -/
def inSafe (s : State) : Bool := s.dev.st == .safe && s.safe.safe

/-- The safe state with a given cause or, when several faults share the lc, a lower code (R397). -/
def safeWith (cause : Nat) (t : State) : Prop := inSafe t = true ∧ t.safe.cause.toNat ≤ cause

/-- Whether a fatal fault takes the engine to the safe state: past cold start, not failed and not there already (R396). -/
def canFreeze (s : State) : Bool := !(s.dev.st == .coldStart || s.dev.st == .startFailed || s.dev.st == .safe)

/-! ## Scalar instructions -/

/-- No granule of S-mem that holds some of these bytes needs correction (R91, R106). -/
def soundSmem (cl : Cluster) (off n : Nat) : Bool := (granules off n).all (fun g => Tab.get 0 cl.ctlUpsets g == 0)

/-- A scalar core issues in the current lc: the lattice runs, the core runs its program and has not to wait, its program
counter lies in its region, and the word there needs no correction (R79, R106, R110). S0 of a cluster in gang mode issues
what its gang's leader fetches, as `gangIssues` says (R132). -/
def canIssue (s : State) (c : Nat) (k : Sc) : Bool :=
  isCluster c && latticeRuns s && !ganged s c k && (scalarCore k (clusterAt s c)).runs &&
    decide ((scalarCore k (clusterAt s c)).ready ≤ s.lc) &&
    inRegion (clusterAt s c) (regionOff k) (scalarCore k (clusterAt s c)).pc &&
    soundSmem (clusterAt s c) (scalarCore k (clusterAt s c)).pc 4

/-- A gang of which the leader `c` issues a word of S0 in the current lc, as `canIssue` has it for a cluster by itself, and
in which no member is but the leader itself and `ms` (R132). -/
def gangIssues (s : State) (c : Nat) (ms : List Nat) : Bool :=
  isCluster c && latticeRuns s && ganged s c .s0 && gangLeader c == c && (clusterAt s c).s0.runs &&
    decide ((clusterAt s c).s0.ready ≤ s.lc) && inRegion (clusterAt s c) (regionOff .s0) (clusterAt s c).s0.pc &&
    soundSmem (clusterAt s c) (clusterAt s c).s0.pc 4 &&
    (participants s).filter (fun m => m != c && gangLeader m == c && inGang (clusterAt s m) && (clusterAt s m).s0.runs) == ms

/-- A cluster in whose scalar core an instruction issues: the core can issue again in the next lc. -/
def issued (s : State) (c : Nat) (k : Sc) : Cluster := beginIssue k s.lc (clusterAt s c)

/-- A general register of a core (R79). -/
def gOf (s : State) (c : Nat) (k : Sc) (r : BitVec 5) : W64 :=
  readG (inGang (clusterAt s c)) c k r.toNat (clusterAt s c)

/-- An address register of S1. -/
def aOf (s : State) (c : Nat) (r : BitVec 3) : W32 := readA r.toNat (clusterAt s c)

/-- No earlier result lands in a register in the lc in which this one does. -/
def alone (s : State) (c : Nat) (k : Sc) (d : Dst) : Bool := !clashes s.lc k d (clusterAt s c)

/-- rd := x, and the program goes on. -/
def gNext (s : State) (c : Nat) (k : Sc) (rd : BitVec 5) (x : W64) : State :=
  setCluster c (stepPc k (writeG (inGang (clusterAt s c)) k rd.toNat x (issued s c k))) s

/-- The program goes on, and an effect takes place in a later lc. -/
def goesOnWith (s : State) (c : Nat) (k : Sc) (at_ : Nat) (e : Late) : State :=
  setCluster c (later at_ e (stepPc k (issued s c k))) s

/-- The program goes on, and nothing else happens. -/
def passed (s : State) (c : Nat) (k : Sc) : State := setCluster c (stepPc k (issued s c k)) s

/-- The program goes on at an address. -/
def jumped (s : State) (c : Nat) (k : Sc) (t : Nat) : State :=
  setCluster c (setScalar k { scalarCore k (issued s c k) with pc := t } (issued s c k)) s

/-- The program counter of a scalar core. -/
def pcOf (s : State) (c : Nat) (k : Sc) : Nat := (scalarCore k (clusterAt s c)).pc

/-! ## Vector instructions -/

/-- A vector core issues in the current lc (R60, R106, R110). -/
def canIssueVec (s : State) (c v : Nat) : Bool :=
  vecExists c v && latticeRuns s && (vecCore v (clusterAt s c)).st == .issuing &&
    decide ((vecCore v (clusterAt s c)).ready ≤ s.lc) && inRegion (clusterAt s c) 0x0C (vecCore v (clusterAt s c)).pc &&
    soundSmem (clusterAt s c) (vecCore v (clusterAt s c)).pc 8

/-- A cluster in whose vector core an instruction issues. -/
def issuedVec (s : State) (c v : Nat) : Cluster := updVec v (fun x => { x with ready := s.lc + 1 }) (clusterAt s c)

/-- A vector register. -/
def vOf (s : State) (c v : Nat) (r : BitVec 5) : Lanes := readV v r.toNat (clusterAt s c)

/-- A mask register (R59). -/
def mOf (s : State) (c v : Nat) (m : BitVec 3) : W32 := readM v m.toNat (clusterAt s c)

/-- The program of a vector core goes on after what `f` does to the cluster. -/
def vecPassed (s : State) (c v : Nat) (f : Cluster → Cluster) : State :=
  setCluster c (updVec v vecNext (f (issuedVec s c v))) s

/-- No earlier result lands in vector register `r` `lat` lc from now. -/
def aloneV (s : State) (c v lat : Nat) (r : Nat) : Bool := !landsV (s.lc + lat) v r (clusterAt s c)

/-- No earlier result lands in mask register `r` `lat` lc from now; m0 takes none. -/
def aloneM (s : State) (c v lat : Nat) (r : Nat) : Bool := r == 0 || !landsM (s.lc + lat) v r (clusterAt s c)

/-- VD takes 32 lanes `lat` lc from now where the mask is 1, and nothing else happens. -/
def vecMoves (s : State) (c v lat : Nat) (vd : BitVec 5) (mask : W32) (f : Nat → W32) : State :=
  vecPassed s c v (later (s.lc + lat) (.v v vd.toNat (mkLanes f) mask))

/-- VD takes 32 rounded results `lat` lc from now where the mask is 1, and their NaN and overflows are counted then
(R52). -/
def vecComputes (s : State) (c v lat : Nat) (vd : BitVec 5) (mask : W32) (f : Nat → FRes) : State :=
  vecPassed s c v (fun cl =>
    laterNum (s.lc + lat) (countLanes mask (fun l => (f l).nan)) (countLanes mask (fun l => overflowed (f l))) 0
      (later (s.lc + lat) (.v v vd.toNat (mkLanes (fun l => (f l).bits)) mask) cl))

/-- Node i of level n of the lane tree: level 0 are the 32 inputs, each level combines adjacent pairs (R64). -/
def treeValue (f : W32 → W32 → FRes) (x : Nat → W32) : Nat → Nat → W32
  | 0, i => x i
  | n + 1, i => (f (treeValue f x n (2 * i)) (treeValue f x n (2 * i + 1))).bits

/-- Whether a node at or below node i of level n overflowed (R64). -/
def treeOverflow (f : W32 → W32 → FRes) (x : Nat → W32) : Nat → Nat → Bool
  | 0, _ => false
  | n + 1, i =>
    treeOverflow f x n (2 * i) || treeOverflow f x n (2 * i + 1) ||
      (f (treeValue f x n (2 * i)) (treeValue f x n (2 * i + 1))).ovf

/-- Lane 0 of VD takes the value of the lane tree ten lc from now, and one event at most is counted (R64). -/
def vecReduces (s : State) (c v : Nat) (vd : BitVec 5) (f : W32 → W32 → FRes) (x : Nat → W32) : State :=
  let r := treeValue f x 5 0
  vecPassed s c v (fun cl =>
    laterNum (s.lc + 10) (b2n (f32 r).isNaN)
      (b2n (treeOverflow f x 5 0 && (match f32 r with | .inf _ => true | _ => false))) 0
      (later (s.lc + 10) (.v v vd.toNat (mkLanes (fun _ => r)) 1) cl))

/-- A register pair takes 48-bit integers `lat` lc from now: bits [31:0] and, sign-extended, bits [47:32] (R63). -/
def vecWide (s : State) (v lat : Nat) (vd : BitVec 5) (mask : W32) (f : Nat → Int) (cl : Cluster) : Cluster :=
  later (s.lc + lat) (.v v (vd.toNat + 1) (mkLanes (fun l => ((BitVec.ofInt 48 (f l)).extractLsb' 32 16).signExtend 32)) mask)
    (later (s.lc + lat) (.v v vd.toNat (mkLanes (fun l => (BitVec.ofInt 48 (f l)).extractLsb' 0 32)) mask) cl)

/-- The 48-bit integer of a register pair in a lane (R63). -/
def pairOf (s : State) (c v : Nat) (r : BitVec 5) (l : Nat) : Nat :=
  (lane (vOf s c v r) l).toNat + 2 ^ 32 * ((lane (readV v (r.toNat + 1) (clusterAt s c)) l).toNat % 2 ^ 16)

/-- The address of a vector access: ADDR + 8 × i × STEP in REP iteration i (R129). -/
def vecAddress (s : State) (c v : Nat) (x : VAddr) : Int :=
  let core := vecCore v (clusterAt s c)
  x.addr.toNat + 8 * (if 0 < core.repLeft then (core.repIter : Int) else 0) * x.step.toInt

/-! ## Instructions and their cores -/

/-- The cluster and the scalar core of a scalar instruction (R113). -/
def scalarOf : Instr → Option (Nat × Sc)
  | .alu c k _ _ _ _ => some (c, k)
  | .addi c k _ _ _ => some (c, k)
  | .andi c k _ _ _ => some (c, k)
  | .ori c k _ _ _ => some (c, k)
  | .xori c k _ _ _ => some (c, k)
  | .shi c k _ _ _ => some (c, k)
  | .movk c k _ _ _ => some (c, k)
  | .beq c k _ _ _ => some (c, k)
  | .bne c k _ _ _ => some (c, k)
  | .blt c k _ _ _ => some (c, k)
  | .bge c k _ _ _ => some (c, k)
  | .bltu c k _ _ _ => some (c, k)
  | .bgeu c k _ _ _ => some (c, k)
  | .jmp c k _ => some (c, k)
  | .call c k _ => some (c, k)
  | .ret c k => some (c, k)
  | .loop c k _ _ => some (c, k)
  | .wait c k _ => some (c, k)
  | .waitr c k _ => some (c, k)
  | .mop c _ _ _ _ => some (c, .s0)
  | .vstart c _ _ => some (c, .s0)
  | .s1start c _ => some (c, .s0)
  | .weir c _ _ _ => some (c, .s0)
  | .stop c => some (c, .s0)
  | .lda c _ _ _ _ _ _ => some (c, .s1)
  | .stn c _ _ _ _ => some (c, .s1)
  | .aop c _ _ _ _ => some (c, .s1)
  | .mova c _ _ => some (c, .s1)
  | .tload c _ _ _ _ => some (c, .s1)
  | .gload c _ _ _ => some (c, .s1)
  | .s1End c => some (c, .s1)
  | _ => none

/-- The cluster and the vector core of a vector instruction (R126). -/
def vectorOf : Instr → Option (Nat × Nat)
  | .fadd c v _ _ _ _ => some (c, v)
  | .fsub c v _ _ _ _ => some (c, v)
  | .fmul c v _ _ _ _ => some (c, v)
  | .fma c v _ _ _ _ _ => some (c, v)
  | .fms c v _ _ _ _ _ => some (c, v)
  | .fnma c v _ _ _ _ _ => some (c, v)
  | .fnms c v _ _ _ _ _ => some (c, v)
  | .fmin c v _ _ _ _ => some (c, v)
  | .fmax c v _ _ _ _ => some (c, v)
  | .fabs c v _ _ _ => some (c, v)
  | .fneg c v _ _ _ => some (c, v)
  | .fcmp c v _ _ _ _ _ => some (c, v)
  | .sel c v _ _ _ _ _ => some (c, v)
  | .iadd c v _ _ _ _ => some (c, v)
  | .isub c v _ _ _ _ => some (c, v)
  | .iand c v _ _ _ _ => some (c, v)
  | .ior c v _ _ _ _ => some (c, v)
  | .ixor c v _ _ _ _ => some (c, v)
  | .ishl c v _ _ _ _ => some (c, v)
  | .ishr c v _ _ _ _ => some (c, v)
  | .isar c v _ _ _ _ => some (c, v)
  | .icmp c v _ _ _ _ _ => some (c, v)
  | .wadd c v _ _ _ _ => some (c, v)
  | .wsub c v _ _ _ _ => some (c, v)
  | .bcast c v _ _ _ _ => some (c, v)
  | .perm c v _ _ _ _ => some (c, v)
  | .unpk c v _ _ _ _ => some (c, v)
  | .rsum c v _ _ _ => some (c, v)
  | .rmin c v _ _ _ => some (c, v)
  | .rmax c v _ _ _ => some (c, v)
  | .teval c v _ _ _ _ => some (c, v)
  | .tgrad c v _ _ _ _ _ => some (c, v)
  | .cvt c v _ _ _ _ _ _ => some (c, v)
  | .cvtmx c v _ _ _ _ _ _ => some (c, v)
  | .cvtxf c v _ _ _ _ _ => some (c, v)
  | .cvtg c v _ _ _ _ => some (c, v)
  | .cvts c v _ _ _ => some (c, v)
  | .cvtsf c v _ _ _ => some (c, v)
  | .scnt c v _ _ _ _ _ _ => some (c, v)
  | .dbegin c v _ => some (c, v)
  | .dfold c v _ => some (c, v)
  | .dfoldt c v _ _ => some (c, v)
  | .dend c v => some (c, v)
  | .dread c v _ => some (c, v)
  | .dclr c v => some (c, v)
  | .gst c v _ => some (c, v)
  | .gdraw c v _ _ _ => some (c, v)
  | .gdrawi c v _ _ _ => some (c, v)
  | .ld c v _ _ _ => some (c, v)
  | .st c v _ _ => some (c, v)
  | .pop c v _ _ _ => some (c, v)
  | .push c v _ => some (c, v)
  | .li c v _ _ _ => some (c, v)
  | .rep c v _ _ => some (c, v)
  | .vectorEnd c v => some (c, v)
  | _ => none

/-! ## Ports and frames -/

/-- A port with its counters changed. -/
def portCounts (s : State) (p : Nat) (f : PortCnt → PortCnt) : State :=
  { s with ports := Tab.set Port.reset s.ports p { portAt s p with cnt := f (portAt s p).cnt } }

/-- A ring die with its counters changed. -/
def ringCounts (s : State) (d : Nat) (f : RingCnt → RingCnt) : State :=
  { s with rings := Tab.set Ring.reset s.rings d { ringAt s d with cnt := f (ringAt s d).cnt } }

/-- The state after a frame has left a port's inbox. -/
def taken (s : State) (p vl : Nat) (f : Bytes) : State :=
  let q := portAt s p
  setPort p { q with inbox := removeFirst (fun x => x == { vl := vl, bytes := f }) q.inbox } s

/-- A plain bulk frame of a type that a port takes in: the port is not off or DOWN, the engine is not in the safe state,
and the frame passes the checks above the link layer (R245, R247, R249). -/
def admitsBulk (s : State) (p vl ftype : Nat) (f : Bytes) : Prop :=
  p < 24 ∧ vl < 8 ∧ (portAt s p).st ≠ .off ∧ (portAt s p).st ≠ .down ∧ isSafe s = false ∧ fieldB f 0 1 = ftype ∧
    frameError (portAt s p).role vl f = false ∧ passesFilter (portAt s p) f = true ∧ fieldB f 1 1 = 0 ∧
    (portAt s p).sealedReq = false ∧ bodyError f = false ∧ Tab.wf Port.reset s.ports = true

/-- A whole TILE frame of which nothing has been judged before its end arrived (R254). -/
def comesWhole (s : State) (p vl : Nat) (f : Bytes) : Prop :=
  headSize ≤ f.length ∧ whole f = true ∧ (laneAt (portAt s p) vl).head = none

/-- A control frame of a type that a port takes in (R246, R247). -/
def admitsControl (s : State) (p ctype : Nat) (f : Bytes) : Prop :=
  p < 24 ∧ (portAt s p).st ≠ .off ∧ (portAt s p).st ≠ .down ∧ isSafe s = false ∧ fieldB f 0 1 = ctype ∧
    (3 ≤ ctype → passesFilter (portAt s p) f = true) ∧ Tab.wf Port.reset s.ports = true

/-! ## The mailbox -/

/-- A command is answered: the return code, the device status, the output, and MSI-X vector 0 (R337, R338). -/
def answered (rc : Nat) (d : DStatus) (out : Bytes) (s t : State) : Prop :=
  t.mbx.rc = rc ∧ t.mbx.dstatus = d ∧ t.mbx.out = out ∧ t.cxl.msix = setAt s.cxl.msix 0 (s.cxl.msix.getD 0 0 + 1)

/-- A vendor command is answered with a device status and an output behind its header (R338). -/
def replied (d : DStatus) (out : Bytes) (s t : State) : Prop := answered (returnCode d) d (resultHeader d 0 ++ out) s t

/-- Nothing changes but the mailbox and the messages raised. -/
def onlyMailbox (s t : State) : Prop :=
  { t with mbx := s.mbx, cxl := { t.cxl with msix := s.cxl.msix, msixPending := s.cxl.msixPending } } = s

/-- A background command is accepted beside the one that runs (R205, R338, R340). -/
def besideBegun (b : BgCmd) (s t : State) : Prop :=
  answered 1 .ok (resultHeader .ok 0) s t ∧ t.mbx.bg = s.mbx.bg ∧ t.mbx.beside = some b

/-- A background command is accepted (R338, R339). -/
def bgBegun (b : BgCmd) (s t : State) : Prop := answered 1 .ok (resultHeader .ok 0) s t ∧ t.mbx.bg = some b

/-- The background command has ended with a result, with MSI-X vector 0 (R337 to R339); one beside it goes on. -/
def ended (r : BgResult) (s t : State) : Prop :=
  t.mbx.bg = s.mbx.beside ∧ t.mbx.beside = none ∧ t.mbx.bgRes = r ∧ t.cxl.msix = setAt s.cxl.msix 0 (s.cxl.msix.getD 0 0 + 1)

/-- The mailbox takes a vendor command of some states: the link is up, no background command runs, and the engine is in
one of them (R339, R340). -/
def takesCommand (states : List DevState) (s : State) : Prop :=
  mailboxUp s = true ∧ s.mbx.bg = none ∧ s.dev.st ∈ states

/-- Whether the command that runs beside another is a READBACK or an ATTEST beside the scrub or a warm start (R205, R340). -/
def Mailbox.besideFits (m : Mailbox) : Bool :=
  match m.beside with
  | none => true
  | some (.readback _) => m.bg == some .endLend || m.bg == some .warmStart
  | some (.attest _) => m.bg == some .endLend || m.bg == some .warmStart
  | some _ => false

/-- A background command runs only in the states in which it can (R331, R339): VERIFY in STATE 3, CONFIGURE and RELIEF in 4
and 5, a warm start in 10, the scrub in 9; READBACK and ATTEST leave the state as it is, and beside another command only the
two run (R205, R340). -/
def State.bgFits (s : State) : Bool :=
  s.mbx.besideFits &&
  match s.mbx.bg with
  | none => true
  | some .verify => s.dev.st == .loadOpen
  | some .configure => s.dev.st == .resident || s.dev.st == .configured
  | some (.relief _) => s.dev.st == .resident || s.dev.st == .configured
  | some .warmStart => s.dev.st == .warmStart
  | some (.readback _) => true
  | some (.attest _) => true
  | some .endLend => s.dev.st == .scrubbing

/-! ## Canonical form -/

/-- The canonical form of a vector core's registers and table images. -/
def VecCore.canon (x : VecCore) : Bool :=
  Tab.wf Lanes.zero x.v && Tab.wf 0 x.m && Tab.wf 0 x.fwd.img && Tab.wf 0 x.der.img

/-- The canonical form of a matrix core's running values and open K-blocks. -/
def MatCore.canon (x : MatCore) : Bool := Tab.wf 0 x.out && Tab.wf KSum.reset x.ksum

/-- The canonical form of a cluster: memories with their flaws, route tables, registers, scoreboard, the rows that land. -/
def Cluster.canon (cl : Cluster) : Bool :=
  Tab.wf 0 cl.mem && Tab.wf 0 cl.smem && Tab.wf 0 cl.rt0 && Tab.wf 0 cl.rt1 && Tab.wf 0 cl.upsets && Tab.wf 0 cl.ctlUpsets &&
    Tab.wf 0 cl.s0.g && Tab.wf 0 cl.s1.g && Tab.wf 0 cl.a && Tab.wf VecCore.reset cl.vecs && cl.vecs.all (fun e => e.2.canon) &&
    Tab.wf MatCore.reset cl.mats && cl.mats.all (fun e => e.2.canon) && Tab.wf Score.reset cl.sb &&
    cl.land.all (fun b => Tab.wf none b.parts)

/-- The canonical form of a port's lanes and digest ring. -/
def Port.canon (p : Port) : Bool := Tab.wf Lane.reset p.lanes && Tab.wf [] p.digRing

/-- The canonical form of the tier engine's tables. -/
def Tier.canon (t : Tier) : Bool :=
  Tab.wf MapEntry.reset t.map && Tab.wf Account.reset t.accts && Tab.wf ListRec.reset t.recs &&
    Tab.wf StageList.none t.stages && Tab.wf 0 t.stackEcc

/-- The canonical form of the records that the engine keeps: the three logs, the thermal history, the readings, the merged
map. -/
def State.recordsCanon (s : State) : Bool :=
  Tab.wf EventRec.zero s.logs.events && Tab.wf WeirRec.zero s.logs.weirs && Tab.wf DigestRec.zero s.logs.digests &&
    Tab.wf FieldReg.reset s.heat.fields && Tab.wf 0 s.heat.sensors && Tab.wf [] s.heat.history &&
    Tab.wf 0 s.map.marks && Tab.wf 0xFFFF s.map.spare

/-- The canonical form of the state: in every memory and table keys rise and no entry is what an unlisted key reads
as. -/
def State.canon (s : State) : Bool :=
  Tab.wf 0xFF s.flash && Tab.wf 0 s.stackMem && Tab.wf 0 s.stackUpsets &&
    Tab.wf Cluster.reset s.clusters && s.clusters.all (fun e => e.2.canon) &&
    Tab.wf Port.reset s.ports && s.ports.all (fun e => e.2.canon) &&
    Tab.wf Ring.reset s.rings && s.rings.all (fun e => Tab.wf [] e.2.extract) &&
    Tab.wf Sluice.reset s.sluices && s.sluices.all (fun e => Tab.wf 0 e.2.tries) &&
    Tab.wf Queue.reset s.queues && s.queues.all (fun e => e.2.running.all (fun r => Tab.wf 0 r.tries)) &&
    s.tier.canon && s.recordsCanon

end Sys2Proof.Machine
end

