-- ==== Sys2Proof/Certificates/Slice0/Obligations.lean ====
section
/-! DEFINITION. The statements for the provers, from the numbered rules of spec/. -/

open Sys2Proof Sys2Proof.Machine

/-! ## The queue -/

/-- The model's step: the command at the front of the queue runs on the queue's rest; on an empty queue time passes
(log entry 2). -/
def Obligations.StepRunsTheFrontCommand : Prop :=
  (∀ (i : Instr) (s : State),
      step { s with pending := i :: s.pending } = exec i s) ∧
  (∀ s : State, s.pending = [] → step s = .next (tick s))

/-! ## Scalar and station instructions (05, 06) -/

/-- R113: the one-lc results of the scalar instructions, with the sign and zero extensions of their immediates.
R113: MUL gives the low 64 bits of the product, seen from the third lc after its issue. -/
def Obligations.ScalarArithmeticResults : Prop :=
  (∀ (s : State) (c : Nat) (k : Sc) (rd rs1 rs2 : BitVec 5) (imm : BitVec 16) (q : BitVec 2),
     canIssue s c k = true → alone s c k { isA := false, reg := rd.toNat, lat := 1 } = true →
     let a := gOf s c k rs1
     let b := gOf s c k rs2
     exec (.alu c k rd rs1 rs2 0) s = .next (gNext s c k rd (a + b)) ∧
     exec (.alu c k rd rs1 rs2 1) s = .next (gNext s c k rd (a - b)) ∧
     exec (.alu c k rd rs1 rs2 2) s = .next (gNext s c k rd (a &&& b)) ∧
     exec (.alu c k rd rs1 rs2 3) s = .next (gNext s c k rd (a ||| b)) ∧
     exec (.alu c k rd rs1 rs2 4) s = .next (gNext s c k rd (a ^^^ b)) ∧
     exec (.alu c k rd rs1 rs2 5) s = .next (gNext s c k rd (a <<< (b.toNat % 64))) ∧
     exec (.alu c k rd rs1 rs2 6) s = .next (gNext s c k rd (a >>> (b.toNat % 64))) ∧
     exec (.alu c k rd rs1 rs2 7) s = .next (gNext s c k rd (a.sshiftRight (b.toNat % 64))) ∧
     exec (.alu c k rd rs1 rs2 8) s = .next (gNext s c k rd (if a.toInt < b.toInt then 1 else 0)) ∧
     exec (.alu c k rd rs1 rs2 9) s = .next (gNext s c k rd (if a.toNat < b.toNat then 1 else 0)) ∧
     exec (.addi c k rd rs1 imm) s = .next (gNext s c k rd (a + imm.signExtend 64)) ∧
     exec (.andi c k rd rs1 imm) s = .next (gNext s c k rd (a &&& imm.setWidth 64)) ∧
     exec (.ori c k rd rs1 imm) s = .next (gNext s c k rd (a ||| imm.setWidth 64)) ∧
     exec (.xori c k rd rs1 imm) s = .next (gNext s c k rd (a ^^^ imm.setWidth 64)) ∧
     (∀ n : Nat, n < 64 →
       exec (.shi c k rd rs1 (BitVec.ofNat 16 n)) s = .next (gNext s c k rd (a <<< n)) ∧
       exec (.shi c k rd rs1 (BitVec.ofNat 16 (0x4000 + n))) s = .next (gNext s c k rd (a >>> n)) ∧
       exec (.shi c k rd rs1 (BitVec.ofNat 16 (0x8000 + n))) s = .next (gNext s c k rd (a.sshiftRight n))) ∧
     (∃ x : W64, exec (.movk c k rd q imm) s = .next (gNext s c k rd x) ∧
       ∀ j : Nat, j < 64 →
         x.getLsbD j = if j / 16 = q.toNat then imm.getLsbD (j % 16) else (gOf s c k rd).getLsbD j)) ∧
  (∀ (s : State) (c : Nat) (k : Sc) (rd rs1 rs2 : BitVec 5),
     canIssue s c k = true → alone s c k { isA := false, reg := rd.toNat, lat := 3 } = true →
     exec (.alu c k rd rs1 rs2 10) s =
       .next (goesOnWith s c k (s.lc + 3) (.g k rd.toNat (gOf s c k rs1 * gOf s c k rs2))))

/-- R79: two results that land in one register in one lc: the register takes a free value that depends on these results
alone, and everything else is as for an instruction that lands alone (log entry 6; the spec states no outcome).
R61: two results in one vector or mask register in one lc are a schedule collision. -/
def Obligations.CollidingResultsAreFree : Prop :=
  (∀ (s : State) (c : Nat) (k : Sc) (rd rs1 rs2 : BitVec 5),
     let d : Dst := { isA := false, reg := rd.toNat, lat := 3 }
     canIssue s c k = true → alone s c k d = false →
     let effects := (clusterAt s c).late ++ [(s.lc + 3, Late.g k rd.toNat (gOf s c k rs1 * gOf s c k rs2))]
     let results := effects.filterMap (fun e =>
       match e.2 with
       | .g k' r v => if e.1 = s.lc + 3 ∧ k' = k ∧ r = rd.toNat then some v else none
       | _ => none)
     exec (.alu c k rd rs1 rs2 10) s =
       .next (setCluster c
         { stepPc k (issued s c k) with
           late := effects.map (fun e =>
             if e.1 = s.lc + 3 ∧ lateFor k d e.2 = true then (e.1, Late.g k rd.toNat (Config.clash results)) else e) } s)) ∧
  (∀ (s : State) (c : Nat) (k : Sc) (rd rs1 : BitVec 5) (imm : BitVec 16),
     let d : Dst := { isA := false, reg := rd.toNat, lat := 1 }
     canIssue s c k = true → alone s c k d = false →
     ∃ t : State, exec (.addi c k rd rs1 imm) s = .next t ∧
       { clusterAt t c with late := [] } =
         { stepPc k (writeG (inGang (clusterAt s c)) k rd.toNat (gOf s c k rs1 + imm.signExtend 64) (issued s c k)) with
           late := [] } ∧
       (clusterAt t c).late.length = (clusterAt s c).late.length ∧
       (∃ x : W64, ∀ e ∈ (clusterAt t c).late,
         e ∈ (clusterAt s c).late ∧ ¬(e.1 = s.lc + 1 ∧ lateFor k d e.2 = true) ∨
           e = (s.lc + 1, Late.g k rd.toNat x)) ∧
       { t with clusters := s.clusters } = s) ∧
  (∀ (s : State) (c v : Nat) (vd va vb : BitVec 5) (m : BitVec 3) (imm : W32), canIssueVec s c v = true →
     (aloneV s c v 2 vd.toNat = false → ∃ t, exec (.li c v vd m imm) s = .next t ∧ safeWith 0x03 t) ∧
     (vd.toNat < 8 → aloneM s c v 2 vd.toNat = false →
       ∃ t, exec (.fcmp c v vd va vb m 0) s = .next t ∧ safeWith 0x03 t) ∧
     (∃ t, exec (.cvtmx c v vd va vd m 5 0) s = .next t ∧ safeWith 0x03 t) ∧
     ((f32 (lane (vOf s c v va) 0)).finite = true → (f32 (lane (vOf s c v va) 0)).negative = false →
       ∃ t, exec (.scnt c v vd vb vb vd va m) s = .next t ∧ safeWith 0x03 t))

/-- R79, R132: g0 reads as zero and ignores writes; in gang mode g1 of S0 reads as the gang-local index and ignores
writes; every other register reads what was written, and a write leaves the other registers alone.
R60, R94: a result that falls due alone is seen in its register from its lc on: lanes whose mask bit is 1 take the
new value, the others keep theirs (R59), and nothing else of the cluster changes but the model's own lists of what is due and
of what this lc has used; a memory write that falls due alone stores its bytes and no others. -/
def Obligations.RegistersAndResults : Prop :=
  (∀ (cl : Cluster) (c : Nat) (k : Sc) (r : Nat) (x : W64) (gang : Bool),
     Tab.wf 0 (scalarCore k cl).g = true →
     readG gang c k 0 cl = 0 ∧
     writeG gang k 0 x cl = cl ∧
     readG true c .s0 1 cl = BitVec.ofNat 64 (gangIndex c) ∧
     writeG true .s0 1 x cl = cl ∧
     (r ≠ 0 → ¬(gang = true ∧ k = .s0 ∧ r = 1) → readG gang c k r (writeG gang k r x cl) = x) ∧
     (∀ (k' : Sc) (q : Nat), (k', q) ≠ (k, r) → readG gang c k' q (writeG gang k r x cl) = readG gang c k' q cl) ∧
     Tab.wf 0 (scalarCore k (writeG gang k r x cl)).g = true) ∧
  (∀ (c now : Nat) (w : Work), badBanks now w.cl = [] →
     (∀ (v r : Nat) (x : Lanes) (mask : W32), dueLate false (now + 1) w.cl = [.v v r x mask] →
       Tab.wf VecCore.reset w.cl.vecs = true → Tab.wf Lanes.zero (vecCore v w.cl).v = true →
       let cl := (clusterCommit c now w).cl
       let old := vecCore v w.cl
       (clusterCommit c now w).bad = w.bad ∧
       (∃ y : Lanes, (∀ l, l < 32 → lane y l = if mask.getLsbD l then lane x l else lane (readV v r w.cl) l) ∧
         cl = { w.cl with
           vecs := Tab.set VecCore.reset w.cl.vecs v { old with v := Tab.set Lanes.zero old.v r y },
           late := w.cl.late.filter (fun e => decide (now + 1 < e.1) || (e.2.reads && decide (now < e.1))),
           uses := w.cl.uses.filter (fun u => decide (now < u.lc)), counted := [] }) ∧
       (∀ l, l < 32 → lane (readV v r cl) l = if mask.getLsbD l then lane x l else lane (readV v r w.cl) l) ∧
       (∀ v' r', (v', r') ≠ (v, r) → readV v' r' cl = readV v' r' w.cl)) ∧
     (∀ (a id : Nat) (data : Bytes) (core : Bool), dueLate false (now + 1) w.cl = [.mem a data id core] →
       droppedIds now w.cl = [] → w.cl.upsets = [] → Tab.wf 0 w.cl.mem = true →
       let cl := (clusterCommit c now w).cl
       (clusterCommit c now w).bad = w.bad ∧
       Mem.read 0 cl.mem a data.length = data ∧
       (∀ b, b < a ∨ a + data.length ≤ b → Tab.get 0 cl.mem b = Tab.get 0 w.cl.mem b) ∧
       Tab.wf 0 cl.mem = true))

/-- R113: the branches compare rs1 with rs2, jump by word offsets when the comparison holds, and go on otherwise; JMP
jumps always. A jump that stays within the innermost loop body (R114).
R113, R114: CALL pushes the address of the next word and jumps, RET pops it and goes there, with four entries at
most.
R114: LOOP repeats the LEN instructions that follow as often as the low half of rs says, not at all for 0.
R114: where the program counter reaches the end of loop bodies: back to the start of the innermost one with a count
left, which has then one less; a body with its count used up ends.
R132: in gang mode a word that the leader issues is issued by every member of its gang in the same lc, each on its own
registers, and the leader's registers decide a branch for all of them; the S0 of a member issues nothing by itself. -/
def Obligations.ControlFlow : Prop :=
  (∀ (s : State) (c : Nat) (k : Sc) (rs1 rs2 : BitVec 5) (off : BitVec 16) (joff : BitVec 26),
     canIssue s c k = true →
     let a := gOf s c k rs1
     let b := gOf s c k rs2
     let t := targetOf (pcOf s c k) off.toInt
     let j := targetOf (pcOf s c k) joff.toInt
     (leavesLoop (scalarCore k (clusterAt s c)) t = false →
       exec (.beq c k rs1 rs2 off) s = .next (if a = b then jumped s c k t else passed s c k) ∧
       exec (.bne c k rs1 rs2 off) s = .next (if a ≠ b then jumped s c k t else passed s c k) ∧
       exec (.blt c k rs1 rs2 off) s = .next (if a.toInt < b.toInt then jumped s c k t else passed s c k) ∧
       exec (.bge c k rs1 rs2 off) s = .next (if b.toInt ≤ a.toInt then jumped s c k t else passed s c k) ∧
       exec (.bltu c k rs1 rs2 off) s = .next (if a.toNat < b.toNat then jumped s c k t else passed s c k) ∧
       exec (.bgeu c k rs1 rs2 off) s = .next (if b.toNat ≤ a.toNat then jumped s c k t else passed s c k)) ∧
     (leavesLoop (scalarCore k (clusterAt s c)) j = false →
       exec (.jmp c k joff) s = .next (jumped s c k j))) ∧
  (∀ (s : State) (c : Nat) (k : Sc) (off : BitVec 26),
     canIssue s c k = true →
     let x := scalarCore k (issued s c k)
     (x.rets.length < 4 →
       exec (.call c k off) s =
         .next (setCluster c (setScalar k { x with rets := (x.pc + 4) :: x.rets, pc := targetOf x.pc off.toInt }
           (issued s c k)) s)) ∧
     (∀ (r : Nat) (rs : List Nat), x.rets = r :: rs →
       exec (.ret c k) s = .next (setCluster c (goTo k r (setScalar k { x with rets := rs } (issued s c k))) s))) ∧
  (∀ (s : State) (c : Nat) (k : Sc) (rs : BitVec 5) (len : BitVec 10),
     canIssue s c k = true → len ≠ 0 →
     let x := scalarCore k (issued s c k)
     let n := (gOf s c k rs).toNat % 2 ^ 32
     let stop := x.pc + 4 + 4 * len.toNat
     x.loops.length < 4 → overruns x stop = false →
     (n = 0 → exec (.loop c k rs len) s = .next (setCluster c (goTo k stop (issued s c k)) s)) ∧
     (n ≠ 0 → exec (.loop c k rs len) s =
       .next (setCluster c (setScalar k
         { x with pc := x.pc + 4, loops := { left := n, start := x.pc + 4, stop := stop } :: x.loops } (issued s c k)) s))) ∧
  (∀ (k : Sc) (cl : Cluster) (l : LoopFrame) (done rest : List LoopFrame) (pc : Nat),
     (scalarCore k cl).loops = done ++ l :: rest →
     (∀ d ∈ done, d.stop = pc ∧ d.left ≤ 1) →
     (l.stop = pc → 1 < l.left →
       (scalarCore k (goTo k pc cl)).pc = l.start ∧
       (scalarCore k (goTo k pc cl)).loops = { l with left := l.left - 1 } :: rest) ∧
     (l.stop ≠ pc →
       (scalarCore k (goTo k pc cl)).pc = pc ∧ (scalarCore k (goTo k pc cl)).loops = l :: rest)) ∧
  (∀ (s : State) (c : Nat) (ms : List Nat) (rd rs1 rs2 : BitVec 5) (imm off : BitVec 16),
     gangIssues s c ms = true → State.canon s = true → (participants s).Nodup →
     let goes (i : Instr) (f : Nat → Cluster) : Prop :=
       ∃ t, exec i s = .next t ∧ (∀ m ∈ c :: ms, clusterAt t m = f m) ∧ (∀ m, m ∉ c :: ms → clusterAt t m = clusterAt s m) ∧
         { t with clusters := s.clusters } = s
     ((∀ m ∈ c :: ms, alone s m .s0 { isA := false, reg := rd.toNat, lat := 1 } = true) →
       goes (.addi c .s0 rd rs1 imm) (fun m =>
         stepPc .s0 (writeG true .s0 rd.toNat (gOf s m .s0 rs1 + imm.signExtend 64) (issued s m .s0)))) ∧
     ((∀ m ∈ c :: ms, leavesLoop (clusterAt s m).s0 (targetOf (pcOf s m .s0) off.toInt) = false) →
       goes (.beq c .s0 rs1 rs2 off) (fun m =>
         let cl := issued s m .s0
         if gOf s c .s0 rs1 = gOf s c .s0 rs2 then { cl with s0 := { cl.s0 with pc := targetOf cl.s0.pc off.toInt } }
         else stepPc .s0 cl)) ∧
     (∀ m ∈ ms, exec (.addi m .s0 rd rs1 imm) s = .next s ∧ exec (.beq m .s0 rs1 rs2 off) s = .next s))

/-- R113: WAIT and WAITR take their issue lc and as many further lc as their count says.
R121 to R124: MOP issues the macro-operation of its descriptor: the core is occupied for its rows, the block switch
and the drain, and holds the operation with operand B's address from a[AREG] when SUB is 1. For descriptors whose
fields and addresses are legal, on memories without flawed granules. R41: with COUNT 0 it completes at once and changes
nothing but the program counter; on a core that an earlier operation still occupies it is a schedule collision. -/
def Obligations.CoresOccupied : Prop :=
  (∀ (s : State) (c : Nat) (k : Sc) (imm : BitVec 20) (rs : BitVec 5),
     canIssue s c k = true →
     let after (n : Nat) : State :=
       setCluster c (setScalar k { scalarCore k (stepPc k (issued s c k)) with
         ready := s.lc + 1 + n, st := if n = 0 then .issuing else .waiting } (stepPc k (issued s c k))) s
     exec (.wait c k imm) s = .next (after imm.toNat) ∧
     exec (.waitr c k rs) s = .next (after ((gOf s c k rs).toNat % 2 ^ 32))) ∧
  (∀ (s : State) (c : Nat) (core : BitVec 4) (idx : BitVec 11) (sub : Bool) (areg : BitVec 3),
     canIssue s c .s0 = true → (sub = false → areg = 0) →
     let cl := issued s c .s0
     let x := leNat (Mem.read 0 cl.smem (dirWord cl 0x10 + 16 * idx.toNat) 16)
     let y := leNat (Mem.read 0 cl.smem (dirWord cl 0x14 + 16 * bits x 25 15) 16)
     let aux := if bit x 94 then some (auxOf y) else none
     let b := if sub then some (aOf s c areg).toNat else none
     let m := macroOf x s.lc aux b
     idx.toNat < dirWord cl 0x12 → core.toNat < 12 → macroOk core.toNat x m = true →
     (if bit x 94 then bits x 25 15 < dirWord cl 0x16 ∧ auxOk m y (auxOf y) = true else bits x 25 15 = 0) →
     cl.ctlUpsets = [] →
     (s.lc < (matCore core.toNat cl).free → ∃ t, exec (.mop c core idx sub areg) s = .next t ∧ safeWith 0x03 t) ∧
     ((matCore core.toNat cl).free ≤ s.lc → m.count = 0 →
       exec (.mop c core idx sub areg) s = .next (setCluster c (stepPc .s0 cl) s)) ∧
     ((matCore core.toNat cl).free ≤ s.lc → m.count ≠ 0 → descAddrOk m = true → bAddrOk m = true →
     (aRanges m ++ bRanges m ++ auxRanges m).any (fun r => guarded cl r.1 r.2) = false →
     cl.upsets = [] →
     ∃ (cl' : Cluster) (mc : MatCore),
       exec (.mop c core idx sub areg) s = .next (setCluster c cl' s) ∧
       cl'.mats = Tab.set MatCore.reset cl.mats core.toNat mc ∧
       mc.free = s.lc + m.count + switchLc core.toNat m + (if m.mopc = 2 ∧ m.drain = true then 8 else 0) ∧
       mc.desc = idx.toNat ∧
       (∃ o, mc.op = some o ∧ o.mopc = m.mopc ∧ o.count = m.count ∧ o.bAddr = m.bAddr ∧ o.j = 0 ∧ o.issue = s.lc) ∧
       mc.out = (matCore core.toNat cl).out ∧
       (m.mopc = 1 → mc.block = Mem.read 0 cl.mem m.aAddr 512) ∧
       cl'.s0 = (stepPc .s0 cl).s0 ∧ cl'.s1 = cl.s1 ∧ cl'.vecs = cl.vecs ∧ cl'.a = cl.a ∧ cl'.late = cl.late ∧
       (∀ a, Tab.get 0 cl'.mem a = Tab.get 0 cl.mem a) ∧ cl'.smem = cl.smem))

/-- R111, R113, R114: reserved function codes and immediates, a loop of length 0, a fifth loop or one that passes its
enclosing body, a fifth call, a return with nothing to return to, a jump out of a loop body, and a fetch outside the
region (R110) are fatal: the safe state with cause 0x08, or a lower code of the same lc (R397).
R110: a scalar core whose program counter lies outside its region freezes the lattice when it issues.
R111, R127, R128: reserved vector encodings are fatal with cause 0x08. -/
def Obligations.ReservedFormsFreeze : Prop :=
  (∀ (s : State) (c : Nat) (k : Sc) (rd rs1 rs2 : BitVec 5) (fn : BitVec 11) (imm : BitVec 16) (len : BitVec 10)
     (off : BitVec 26),
     canIssue s c k = true →
     let x := scalarCore k (clusterAt s c)
     let freezes (i : Instr) : Prop := ∃ t, exec i s = .next t ∧ safeWith 0x08 t
     (11 ≤ fn.toNat → freezes (.alu c k rd rs1 rs2 fn)) ∧
     (imm.toNat / 2 ^ 14 = 3 ∨ imm.toNat / 2 ^ 6 % 2 ^ 8 ≠ 0 → freezes (.shi c k rd rs1 imm)) ∧
     (len = 0 ∨ 4 ≤ x.loops.length ∨ overruns x (x.pc + 4 + 4 * len.toNat) = true → freezes (.loop c k rs1 len)) ∧
     (4 ≤ x.rets.length → freezes (.call c k off)) ∧
     (x.rets = [] → freezes (.ret c k)) ∧
     (leavesLoop x (targetOf x.pc off.toInt) = true → freezes (.jmp c k off))) ∧
  (∀ (s : State) (c : Nat) (k : Sc) (rd rs1 : BitVec 5) (imm : BitVec 16),
     isCluster c = true → latticeRuns s = true → (scalarCore k (clusterAt s c)).runs = true →
     (scalarCore k (clusterAt s c)).ready ≤ s.lc →
     (ganged s c k = false ∨ gangLeader c = c) →
     inRegion (clusterAt s c) (regionOff k) (scalarCore k (clusterAt s c)).pc = false →
     ∃ t, exec (.addi c k rd rs1 imm) s = .next t ∧ safeWith 0x08 t) ∧
  (∀ (s : State) (c v : Nat) (vd va vb vc : BitVec 5) (m : BitVec 3) (fn : BitVec 8) (src dst : BitVec 4) (rm : BitVec 2)
     (x : VAddr), canIssueVec s c v = true →
     let freezes (i : Instr) : Prop := ∃ t, exec i s = .next t ∧ safeWith 0x08 t
     (5 ≤ fn.toNat ∨ 8 ≤ vd.toNat → freezes (.fcmp c v vd va vb m fn)) ∧
     (4 ≤ fn.toNat ∨ 8 ≤ vd.toNat → freezes (.icmp c v vd va vb m fn)) ∧
     (8 ≤ vc.toNat → freezes (.sel c v vd va vb vc m)) ∧
     (32 ≤ fn.toNat → freezes (.bcast c v vd va m fn)) ∧
     (6 ≤ fn.toNat → freezes (.perm c v vd va m fn)) ∧
     (2 ≤ fn.toNat → freezes (.unpk c v vd va m fn) ∧ freezes (.teval c v vd va m fn)) ∧
     (fn ≠ 0 → freezes (.tgrad c v vd va vb m fn)) ∧
     (vd.toNat % 2 = 1 ∨ va.toNat % 2 = 1 ∨ vb.toNat % 2 = 1 →
       freezes (.wadd c v vd va vb m) ∧ freezes (.wsub c v vd va vb m)) ∧
     (cvtOk src.toNat dst.toNat rm.toNat = false → freezes (.cvt c v vd va m src dst rm)) ∧
     (isMx dst.toNat = false → freezes (.cvtmx c v vd va vc m dst rm) ∧ freezes (.cvtxf c v vd va vb m dst)) ∧
     freezes (.dfoldt c v va 0) ∧
     (4 ≤ x.width.toNat → freezes (.ld c v vd m x) ∧ freezes (.st c v va x)) ∧
     (x.width ≠ 0 → freezes (.gst c v x) ∧ freezes (.dread c v x)))

/-- R117: VSTART and S1START start a core in lc c + 2 at the given address; a core that has not reached its END is a
schedule collision (R61).
R120: STOP ends S0's program once the final weir has released, in gang mode that of every member with the leader's (R132);
elsewhere in a program it is reserved.
R117: END stops S1.
R60, R62: REP repeats the block of LEN + 1 instructions that follows n times, or skips it when n is 0; a nested REP
is reserved; END stops the core. At the end of the block a vector core goes back to its start while repeats are left. -/
def Obligations.ProgramsStartAndEnd : Prop :=
  (∀ (s : State) (c : Nat) (vc : BitVec 3) (vaddr : BitVec 13) (saddr : BitVec 14),
     canIssue s c .s0 = true →
     let cl := clusterAt s c
     (vc.toNat < 6 → inRegion cl 0x0C (8 * vaddr.toNat) = true →
       (vecBusy vc.toNat cl = false →
         exec (.vstart c vc vaddr) s = .next (goesOnWith s c .s0 (s.lc + 2) (.vstart vc.toNat (8 * vaddr.toNat)))) ∧
       (vecBusy vc.toNat cl = true → ∃ t, exec (.vstart c vc vaddr) s = .next t ∧ safeWith 0x03 t)) ∧
     (s1Running cl = false →
       exec (.s1start c saddr) s = .next (goesOnWith s c .s0 (s.lc + 2) (.s1start (4 * saddr.toNat)))) ∧
     (s1Running cl = true → ∃ t, exec (.s1start c saddr) s = .next t ∧ safeWith 0x03 t)) ∧
  (∀ (s : State) (c : Nat), isCluster c = true → latticeRuns s = true →
     ((clusterAt s c).s0.st = .atWeir → finalReleased s = true →
       (ganged s c .s0 = false →
         exec (.stop c) s = .next (setCluster c
           { clusterAt s c with s0 := { (clusterAt s c).s0 with st := .stopped } } s)) ∧
       (ganged s c .s0 = true → gangLeader c = c →
         ∃ t, exec (.stop c) s = .next t ∧ (clusterAt t c).s0.st = .stopped ∧
           (∀ m ∈ participants s, gangLeader m = c → inGang (clusterAt s m) = true → (clusterAt s m).s0.st = .atWeir →
             (clusterAt t m).s0.st = .stopped) ∧
           { t with clusters := s.clusters } = s)) ∧
     (canIssue s c .s0 = true → ∃ t, exec (.stop c) s = .next t ∧ safeWith 0x08 t)) ∧
  (∀ (s : State) (c v : Nat) (len : BitVec 4) (n : BitVec 16), canIssueVec s c v = true →
     let core := vecCore v (clusterAt s c)
     let stop := core.pc + 8 + 8 * (len.toNat + 1)
     (core.repLeft = 0 →
       exec (.rep c v len n) s = .next (setCluster c (updVec v (fun x =>
         if n = 0 then { x with pc := stop }
         else { x with pc := core.pc + 8, repLeft := n.toNat, repStart := core.pc + 8, repStop := stop, repIter := 0 })
         (issuedVec s c v)) s)) ∧
     (core.repLeft ≠ 0 → ∃ t, exec (.rep c v len n) s = .next t ∧ safeWith 0x08 t) ∧
     exec (.vectorEnd c v) s = .next (setCluster c (updVec v (fun x => { x with st := .stopped, repLeft := 0 })
       (issuedVec s c v)) s) ∧
     (∀ x : VecCore, x.repLeft ≠ 0 → x.pc + 8 = x.repStop →
       (vecNext x).pc = (if x.repLeft = 1 then x.pc + 8 else x.repStart) ∧
       (vecNext x).repLeft = x.repLeft - 1)) ∧
  (∀ (s : State) (c : Nat), canIssue s c .s1 = true →
     ∃ t, exec (.s1End c) s = .next t ∧ (clusterAt t c).s1.st = .stopped ∧ (clusterAt t c).s0 = (clusterAt s c).s0 ∧
       (clusterAt t c).mem = (clusterAt s c).mem ∧ (clusterAt t c).vecs = (clusterAt s c).vecs ∧
       { t with clusters := s.clusters } = s)

/-- R118, R119: WEIR stops S0 at the weir, which its cluster announces; it resumes after the WEIR word, with RLY after
the jump behind it, or at that jump's target when the relay is taken. In any other state than R119's it is a schedule
collision.
R152 to R154: the first ARRIVE of a participant at the awaited weir is noted, and the last one makes the weir due;
LANDED is noted once every entry the weir frees is done; a cluster that is no participant is ignored; a message that
names another weir or comes twice is a weir-token fault. -/
def Obligations.WeirArrival : Prop :=
  (∀ (s : State) (c : Nat) (w : BitVec 16) (rly sent : Bool),
     canIssue s c .s0 = true →
     let cl := issued s c .s0
     let jmp := smemWord (clusterAt s c) (cl.s0.pc + 4)
     (rly = true → soundSmem cl (cl.s0.pc + 4) 4 = true) →
     (sent = true → sentScratch cl ≠ 0) → (rly = true → bits jmp 31 26 = 0x0E) →
     (weirReady s.lc cl = true →
       exec (.weir c w rly sent) s = .next (setCluster c
         { cl with
           s0 := { cl.s0 with st := .atWeir, pc := cl.s0.pc + 4 },
           resumeMain := cl.s0.pc + 4 + (if rly then 4 else 0),
           resumeRelay := if rly then targetOf (cl.s0.pc + 4) (sext 26 (bits jmp 25 0)) else cl.s0.pc + 4,
           weirSent := sent, arriveSent := true, weirNum := w.toNat } s)) ∧
     (weirReady s.lc cl = false → ∃ t, exec (.weir c w rly sent) s = .next t ∧ safeWith 0x03 t)) ∧
  (∀ (s : State) (c w : Nat) (e : WeirEntry), isCluster c = true → inRun s = true →
     ((participants s).contains c = false → exec (.arrive c w) s = .next s ∧ exec (.landed c w) s = .next s) ∧
     ((participants s).contains c = true → awaited s = some e →
       (e.num ≠ w ∨ c ∈ s.weir.arrived → ∃ t, exec (.arrive c w) s = .next t ∧ safeWith 0x0E t) ∧
       (e.num ≠ w ∨ c ∈ s.weir.landed → ∃ t, exec (.landed c w) s = .next t ∧ safeWith 0x0E t) ∧
       (e.num = w → gathers s = true → hasArrived s c w = true →
         (c ∉ s.weir.arrived →
           ∃ t, exec (.arrive c w) s = .next t ∧ t.weir.arrived = insertNat c s.weir.arrived ∧
             t.weir.due = (if (insertNat c s.weir.arrived).length = (participants s).length then some s.lc
               else s.weir.due) ∧
             { t with weir := s.weir } = s) ∧
         (c ∉ s.weir.landed → rowsLanded w (clusterAt s c) = true →
           ∃ t, exec (.landed c w) s = .next t ∧ t.weir.landed = insertNat c s.weir.landed ∧
             t.weir.arrived = s.weir.arrived ∧ t.weir.due = s.weir.due ∧
             t.clusters = Tab.set Cluster.reset s.clusters c { clusterAt s c with landedSent := true } ∧
             { t with weir := s.weir, clusters := s.clusters } = s))))

/-- R113, R116: MOVA copies the low half of a general register to an address register; AOP computes on address
registers, a product being seen from the third lc.
R115, R94, R99: LDA reads an aligned narrow word and its result is seen five lc later; STN writes one, which commits
in the next lc; both leave every byte of memory as it is in their issue lc. A guarded row is a scoreboard fault unless
the load is raw (R105), a bad address an address fault (R87).
R87, R88, R99, R117: TLOAD and GLOAD run when the rows they read are accessible, aligned and not guarded, GLOAD from W-mem and
A-mem alone; a bad address is an address fault, a guarded row a scoreboard fault. -/
def Obligations.AddressRegistersAndNarrowAccess : Prop :=
  (∀ (s : State) (c : Nat) (ad as_ : BitVec 3) (rs : BitVec 5) (imm : BitVec 16),
     canIssue s c .s1 = true →
     let a := aOf s c as_
     let g (r : BitVec 5) : W32 := (gOf s c .s1 r).setWidth 32
     let put (at_ : Nat) (x : W32) : State := goesOnWith s c .s1 at_ (.a ad.toNat x false)
     (alone s c .s1 { isA := true, reg := ad.toNat, lat := 1 } = true →
       exec (.mova c ad rs) s = .next (put (s.lc + 1) (g rs)) ∧
       exec (.aop c ad as_ 0 imm) s = .next (put (s.lc + 1) (a + imm.signExtend 32)) ∧
       exec (.aop c ad as_ 3 imm) s = .next (put (s.lc + 1) (a &&& imm.setWidth 32)) ∧
       (∀ r : BitVec 5,
         exec (.aop c ad as_ 1 (r.setWidth 16)) s = .next (put (s.lc + 1) (a + g r)) ∧
         exec (.aop c ad as_ 2 (r.setWidth 16)) s = .next (put (s.lc + 1) (a <<< r.toNat)) ∧
         exec (.aop c ad as_ 4 (r.setWidth 16)) s =
           .next (put (s.lc + 1) (if a.toNat ≤ (g r).toNat then a else g r)))) ∧
     (alone s c .s1 { isA := true, reg := ad.toNat, lat := 3 } = true →
       exec (.aop c ad as_ 5 imm) s = .next (put (s.lc + 3) (a * imm.setWidth 32)))) ∧
  (∀ (s : State) (c : Nat) (rd rs rb : BitVec 5) (aReg raw half : Bool) (off : BitVec 13),
     canIssue s c .s1 = true → rbOk aReg rb = true →
     let cl := issued s c .s1
     let a := s1Addr c aReg rb off { cl := cl, bad := [] }
     let i := Instr.lda c rd aReg rb raw half off
     let j := Instr.stn c rs aReg rb off
     (okAccess a 8 = false → rd.toNat < 8 →
       (∃ t, exec i s = .next t ∧ safeWith 0x05 t) ∧ (∃ t, exec j s = .next t ∧ safeWith 0x05 t)) ∧
     (okAccess a 8 = true → guarded cl a 8 = true → rd.toNat < 8 →
       (raw = false → ∃ t, exec i s = .next t ∧ safeWith 0x06 t) ∧ (∃ t, exec j s = .next t ∧ safeWith 0x06 t)) ∧
     (okAccess a 8 = true → (raw = true ∨ guarded cl a 8 = false) → rd.toNat < 8 → cl.s1Busy ≤ s.lc → cl.upsets = [] →
       alone s c .s1 { isA := true, reg := rd.toNat, lat := 5 } = true →
       exec i s = .next (setCluster c
         (later (s.lc + 5) (.a rd.toNat (BitVec.ofNat 32 (leNat (Mem.read 0 cl.mem (a + if half then 4 else 0) 4))) true)
           (stepPc .s1 (useBanks s.lc a 8 .read 0 cl))) s)) ∧
     (okAccess a 8 = true → guarded cl a 8 = false → cl.s1Busy ≤ s.lc + 1 →
       exec j s = .next (setCluster c
         (writeMem (s.lc + 1) a (toLe 8 (gOf s c .s1 rs).toNat) .narrow (stepPc .s1 cl)) s))) ∧
  (∀ (s : State) (c : Nat) (vc : BitVec 3) (deriv aReg : Bool) (rb : BitVec 5),
     canIssue s c .s1 = true → vc.toNat < 6 → rbOk aReg rb = true →
     let cl := issued s c .s1
     let a := s1Base c aReg rb { cl := cl, bad := [] }
     let row (j : Nat) : Nat := a + 512 * j
     let runs (i : Instr) : Prop :=
       ∃ t, exec i s = .next t ∧ (clusterAt t c).s1 = (stepPc .s1 cl).s1 ∧ (clusterAt t c).mem = cl.mem ∧
         { t with clusters := s.clusters } = s
     (cl.s1Busy ≤ s.lc + 1 →
       ((∀ j, j < 9 → okAccess (row j) 512 = true ∧ guarded cl (row j) 512 = false) → runs (.tload c vc deriv aReg rb)) ∧
       (okAccess a 32 = true → a < pBase → guarded cl a 32 = false → runs (.gload c vc aReg rb))) ∧
     (okAccess a 32 = false ∨ pBase ≤ a → ∃ t, exec (.gload c vc aReg rb) s = .next t ∧ safeWith 0x05 t) ∧
     (okAccess a 512 = false → ∃ t, exec (.tload c vc deriv aReg rb) s = .next t ∧ safeWith 0x05 t) ∧
     (okAccess a 32 = true → a < pBase → guarded cl a 32 = true → ∃ t, exec (.gload c vc aReg rb) s = .next t ∧ safeWith 0x06 t) ∧
     ((∀ j, j < 9 → okAccess (row j) 512 = true) → (∃ j, j < 9 ∧ guarded cl (row j) 512 = true) →
       ∃ t, exec (.tload c vc deriv aReg rb) s = .next t ∧ safeWith 0x06 t))

/-- R65, R78, R117: TLOAD reads nine wide rows in the nine lc after its issue and occupies the table unit from lc c + 1
on for 33 lc, the load before it included (log entry 77); GLOAD reads the 32 bytes of a generator state in lc c + 1, in
use five lc later; END stops S1. On memory without flawed granules, a row read for a table unit goes to its place in the
unit's image, and a state read for a generator is the one that comes into use.
R77, R78: the generator: a draw gives lane l the word of IBASE + l after six lc and moves IBASE on by 32 when ADV is
set; an indexed draw takes its offsets from VA; GST loads a state of 32 bytes.
R117: a GLOAD and a GST of one core that load in the same lc are a schedule collision. -/
def Obligations.TablesAndGenerators : Prop :=
  (∀ (s : State) (c : Nat) (vc : BitVec 3) (deriv aReg : Bool) (rb : BitVec 5),
     canIssue s c .s1 = true →
     let cl := issued s c .s1
     let a := s1Base c aReg rb { cl := cl, bad := [] }
     (vc.toNat < 6 → rbOk aReg rb = true → cl.s1Busy ≤ s.lc + 1 →
       ((∀ j, j < 9 → okAccess (a + 512 * j) 512 = true ∧ guarded cl (a + 512 * j) 512 = false) →
         ∃ cl', exec (.tload c vc deriv aReg rb) s = .next (setCluster c cl' s) ∧
           cl'.late = cl.late ++ (List.range 9).map (fun j => (s.lc + 1 + j, Late.tread vc.toNat deriv a j)) ∧
           cl'.s1Busy = s.lc + 10 ∧
           cl'.vecs = Tab.set VecCore.reset cl.vecs vc.toNat
             (let x := vecCore vc.toNat cl
              let occupied (u : TableUnit) : TableUnit :=
                { u with loadFrom := if s.lc < u.loadTo then min u.loadFrom (s.lc + 1) else s.lc + 1, loadTo := s.lc + 34 }
              if deriv then { x with der := occupied x.der } else { x with fwd := occupied x.fwd }) ∧
           cl'.s1 = (stepPc .s1 cl).s1 ∧ cl'.s0 = cl.s0 ∧ cl'.mem = cl.mem ∧ cl'.smem = cl.smem) ∧
       (okAccess a 32 = true → a < pBase → guarded cl a 32 = false →
         exec (.gload c vc aReg rb) s = .next (goesOnWith s c .s1 (s.lc + 1) (.gread vc.toNat a)))) ∧
     exec (.s1End c) s = .next (setCluster c { cl with s1 := { cl.s1 with st := .stopped } } s)) ∧
  (∀ (c now v a j : Nat) (w : Work), w.cl.upsets = [] →
     let unit (deriv : Bool) (x : VecCore) : TableUnit := if deriv then x.der else x.fwd
     (∀ deriv : Bool, Tab.wf VecCore.reset w.cl.vecs = true →
       let w' := applyLate c now [] (.tread v deriv a j) w
       w'.bad = w.bad ∧
       unit deriv (vecCore v w'.cl) =
         { unit deriv (vecCore v w.cl) with
           img := Mem.write 0 (unit deriv (vecCore v w.cl)).img (512 * j)
             (Mem.read 0 w.cl.mem (a + 512 * j) (if j = 8 then 16 else 512)) } ∧
       unit (!deriv) (vecCore v w'.cl) = unit (!deriv) (vecCore v w.cl) ∧ w'.cl.mem = w.cl.mem) ∧
     applyLate c now [] (.gread v a) w =
       { w with cl := later (now + 5) (.gen v (genOf (Mem.read 0 w.cl.mem a 32))) (useBanks now a 32 .read 0 w.cl) }) ∧
  (∀ (s : State) (c v : Nat) (vd va : BitVec 5) (m : BitVec 3) (adv : Bool) (x : VAddr), canIssueVec s c v = true →
     let cl := clusterAt s c
     let g := (vecCore v cl).gen
     (aloneV s c v 6 vd.toNat = true →
       exec (.gdraw c v vd m adv) s = .next (vecPassed s c v (fun cl =>
         let cl := later (s.lc + 6)
           (.v v vd.toNat (mkLanes (fun l => genWord g (g.ibase + BitVec.ofNat 48 l))) (mOf s c v m)) cl
         if adv then later (s.lc + 1) (.adv v) cl else cl)) ∧
       exec (.gdrawi c v vd va m) s = .next (vecMoves s c v 6 vd (mOf s c v m) (fun l =>
         genWord g (g.ibase + BitVec.ofNat 48 (lane (vOf s c v va) l).toNat)))) ∧
     (∀ a : Nat, vecAddress s c v x = a → x.width = 0 → okAccess a 32 = true → guarded cl a 32 = false →
       let loads : Prop := ∃ b, (s.lc, Late.gread v b) ∈ cl.late
       (¬loads → cl.upsets = [] →
         exec (.gst c v x) s = .next (vecPassed s c v (fun cl =>
           later (s.lc + 6) (.gen v (genOf (Mem.read 0 cl.mem a 32))) (useBanks s.lc a 32 .read 0 cl)))) ∧
       (loads → ∃ t, exec (.gst c v x) s = .next t ∧ safeWith 0x03 t)))

/-! ## Vector instructions (03, 06) -/

/-- R60, R63, R127: the FP32 operations, lane by lane, each rounded once; their results are seen after four lc, those of
minimum and maximum after two.
R63, R47: minimum and maximum: a NaN operand gives the canonical NaN, which counts; else the result is one of the
operands, and below or above the other, with −0 below +0; a sum, product or fused result of a NaN is canonical. -/
def Obligations.VectorFloatResults : Prop :=
  (∀ (s : State) (c v : Nat) (vd va vb vc : BitVec 5) (m : BitVec 3), canIssueVec s c v = true →
     let a (l : Nat) : FVal := f32 (lane (vOf s c v va) l)
     let b (l : Nat) : FVal := f32 (lane (vOf s c v vb) l)
     let x (l : Nat) : FVal := f32 (lane (vOf s c v vc) l)
     let mask := mOf s c v m
     (aloneV s c v 4 vd.toNat = true →
       exec (.fadd c v vd va vb m) s = .next (vecComputes s c v 4 vd mask (fun l => roundF32 ((a l).add (b l)))) ∧
       exec (.fsub c v vd va vb m) s = .next (vecComputes s c v 4 vd mask (fun l => roundF32 ((a l).add (b l).neg))) ∧
       exec (.fmul c v vd va vb m) s = .next (vecComputes s c v 4 vd mask (fun l => roundF32 ((a l).mul (b l)))) ∧
       exec (.fma c v vd va vb vc m) s =
         .next (vecComputes s c v 4 vd mask (fun l => roundF32 (((a l).mul (b l)).add (x l)))) ∧
       exec (.fms c v vd va vb vc m) s =
         .next (vecComputes s c v 4 vd mask (fun l => roundF32 (((a l).mul (b l)).add (x l).neg))) ∧
       exec (.fnma c v vd va vb vc m) s =
         .next (vecComputes s c v 4 vd mask (fun l => roundF32 (((a l).mul (b l)).neg.add (x l)))) ∧
       exec (.fnms c v vd va vb vc m) s =
         .next (vecComputes s c v 4 vd mask (fun l => roundF32 (((a l).mul (b l)).neg.add (x l).neg)))) ∧
     (aloneV s c v 2 vd.toNat = true →
       exec (.fmin c v vd va vb m) s =
         .next (vecComputes s c v 2 vd mask (fun l => fmin32 (lane (vOf s c v va) l) (lane (vOf s c v vb) l))) ∧
       exec (.fmax c v vd va vb m) s =
         .next (vecComputes s c v 2 vd mask (fun l => fmax32 (lane (vOf s c v va) l) (lane (vOf s c v vb) l))))) ∧
  (∀ a b d : W32,
     ((f32 a).isNaN = true ∨ (f32 b).isNaN = true →
       fadd32 a b = { bits := 0x7FC00000, nan := true, ovf := false } ∧
       fsub32 a b = { bits := 0x7FC00000, nan := true, ovf := false } ∧
       fmul32 a b = { bits := 0x7FC00000, nan := true, ovf := false } ∧
       fma32 a b d = { bits := 0x7FC00000, nan := true, ovf := false } ∧
       fma32 d a b = { bits := 0x7FC00000, nan := true, ovf := false } ∧
       fmin32 a b = { bits := 0x7FC00000, nan := true, ovf := false } ∧
       fmax32 a b = { bits := 0x7FC00000, nan := true, ovf := false }) ∧
     ((f32 a).isNaN = false → (f32 b).isNaN = false →
       ((fmin32 a b).bits = a ∨ (fmin32 a b).bits = b) ∧ ((fmax32 a b).bits = a ∨ (fmax32 a b).bits = b) ∧
       (f32 a).below (f32 (fmin32 a b).bits) = false ∧ (f32 b).below (f32 (fmin32 a b).bits) = false ∧
       (f32 (fmax32 a b).bits).below (f32 a) = false ∧ (f32 (fmax32 a b).bits).below (f32 b) = false) ∧
     (fmin32 0x80000000 0).bits = 0x80000000 ∧ (fmin32 0 0x80000000).bits = 0x80000000 ∧
     (fmax32 0x80000000 0).bits = 0 ∧ (fmax32 0 0x80000000).bits = 0)

/-- R60, R63, R127: the operations that move or combine bits: they make no NaN canonical and count nothing.
R127, R60, R55: comparisons and sign bits write a mask register: one bit per lane where the mask is 1. -/
def Obligations.VectorBitAndMaskResults : Prop :=
  (∀ (s : State) (c v : Nat) (vd va vb vc : BitVec 5) (m : BitVec 3) (imm : W32) (fn : BitVec 8),
     canIssueVec s c v = true →
     let a (l : Nat) : W32 := lane (vOf s c v va) l
     let b (l : Nat) : W32 := lane (vOf s c v vb) l
     let mask := mOf s c v m
     (aloneV s c v 2 vd.toNat = true →
       exec (.fabs c v vd va m) s = .next (vecMoves s c v 2 vd mask (fun l => a l &&& 0x7FFFFFFF)) ∧
       exec (.fneg c v vd va m) s = .next (vecMoves s c v 2 vd mask (fun l => a l ^^^ 0x80000000)) ∧
       exec (.iadd c v vd va vb m) s = .next (vecMoves s c v 2 vd mask (fun l => a l + b l)) ∧
       exec (.isub c v vd va vb m) s = .next (vecMoves s c v 2 vd mask (fun l => a l - b l)) ∧
       exec (.iand c v vd va vb m) s = .next (vecMoves s c v 2 vd mask (fun l => a l &&& b l)) ∧
       exec (.ior c v vd va vb m) s = .next (vecMoves s c v 2 vd mask (fun l => a l ||| b l)) ∧
       exec (.ixor c v vd va vb m) s = .next (vecMoves s c v 2 vd mask (fun l => a l ^^^ b l)) ∧
       exec (.ishl c v vd va vb m) s = .next (vecMoves s c v 2 vd mask (fun l => a l <<< ((b l).toNat % 32))) ∧
       exec (.ishr c v vd va vb m) s = .next (vecMoves s c v 2 vd mask (fun l => a l >>> ((b l).toNat % 32))) ∧
       exec (.isar c v vd va vb m) s = .next (vecMoves s c v 2 vd mask (fun l => (a l).sshiftRight ((b l).toNat % 32))) ∧
       exec (.li c v vd m imm) s = .next (vecMoves s c v 2 vd mask (fun _ => imm)) ∧
       (vc.toNat < 8 → exec (.sel c v vd va vb vc m) s =
         .next (vecMoves s c v 2 vd mask (fun l =>
           if (readM v vc.toNat (clusterAt s c)).getLsbD l then a l else b l)))) ∧
     (aloneV s c v 3 vd.toNat = true →
       (fn.toNat < 32 → exec (.bcast c v vd va m fn) s = .next (vecMoves s c v 3 vd mask (fun _ => a fn.toNat))) ∧
       exec (.perm c v vd va m 0) s = .next (vecMoves s c v 3 vd mask (fun l => a (31 - l))) ∧
       (∀ n : Nat, n < 5 → exec (.perm c v vd va m (BitVec.ofNat 8 (n + 1))) s =
         .next (vecMoves s c v 3 vd mask (fun l => a (if l / 2 ^ n % 2 = 0 then l + 2 ^ n else l - 2 ^ n)))) ∧
       exec (.unpk c v vd va m 0) s =
         .next (vecMoves s c v 3 vd mask (fun l => (a (l / 2) >>> (16 * (l % 2))) <<< 16)) ∧
       exec (.unpk c v vd va m 1) s =
         .next (vecMoves s c v 3 vd mask (fun l => (a (16 + l / 2) >>> (16 * (l % 2))) <<< 16))) ∧
     (aloneV s c v 3 vd.toNat = true → aloneV s c v 3 (vd.toNat + 1) = true →
       vd.toNat % 2 = 0 → va.toNat % 2 = 0 → vb.toNat % 2 = 0 →
       exec (.wadd c v vd va vb m) s =
         .next (vecPassed s c v (vecWide s v 3 vd mask (fun l => pairOf s c v va l + pairOf s c v vb l))) ∧
       exec (.wsub c v vd va vb m) s =
         .next (vecPassed s c v (vecWide s v 3 vd mask (fun l => (pairOf s c v va l : Int) - pairOf s c v vb l))))) ∧
  (∀ (s : State) (c v : Nat) (vd va vb : BitVec 5) (m : BitVec 3), canIssueVec s c v = true → vd.toNat < 8 →
     let a (l : Nat) : W32 := lane (vOf s c v va) l
     let b (l : Nat) : W32 := lane (vOf s c v vb) l
     let writes (lat : Nat) (i : Instr) (p : Nat → Bool) : Prop :=
       ∃ x : W32, (∀ l, l < 32 → x.getLsbD l = p l) ∧
         exec i s = .next (vecPassed s c v (later (s.lc + lat) (.m v vd.toNat x (mOf s c v m))))
     (aloneM s c v 2 vd.toNat = true →
       writes 2 (.fcmp c v vd va vb m 0) (fun l => feq32 (a l) (b l)) ∧
       writes 2 (.fcmp c v vd va vb m 1) (fun l => flt32 (a l) (b l)) ∧
       writes 2 (.fcmp c v vd va vb m 2) (fun l => flt32 (a l) (b l) || feq32 (a l) (b l)) ∧
       writes 2 (.fcmp c v vd va vb m 3) (fun l => !feq32 (a l) (b l)) ∧
       writes 2 (.fcmp c v vd va vb m 4) (fun l => (f32 (a l)).isNaN || (f32 (b l)).isNaN) ∧
       writes 2 (.icmp c v vd va vb m 0) (fun l => a l == b l) ∧
       writes 2 (.icmp c v vd va vb m 1) (fun l => decide ((a l).toInt < (b l).toInt)) ∧
       writes 2 (.icmp c v vd va vb m 2) (fun l => decide ((a l).toNat < (b l).toNat)) ∧
       writes 2 (.icmp c v vd va vb m 3) (fun l => a l != b l)) ∧
     (aloneM s c v 4 vd.toNat = true → writes 4 (.cvts c v vd va m) (fun l => (f32 (a l)).negative)))

/-- R64: the lane reductions: a pairwise tree of five levels whose masked lanes enter as the identity, into lane 0
whatever the mask, with one numeric event at most. -/
def Obligations.LaneReductions : Prop :=
  ∀ (s : State) (c v : Nat) (vd va : BitVec 5) (m : BitVec 3), canIssueVec s c v = true →
    aloneV s c v 10 vd.toNat = true →
    let x (ident : W32) (l : Nat) : W32 := if (mOf s c v m).getLsbD l then lane (vOf s c v va) l else ident
    exec (.rsum c v vd va m) s = .next (vecReduces s c v vd fadd32 (x 0)) ∧
    exec (.rmin c v vd va m) s = .next (vecReduces s c v vd fmin32 (x 0x7F800000)) ∧
    exec (.rmax c v vd va m) s = .next (vecReduces s c v vd fmax32 (x 0xFF800000))

/-- R60, R65 to R68: table evaluation with the unit the instruction names, seen after nine lc, and its product with VB,
rounded once more, after twelve.
R67: the value of segment idx at t: three fused multiply-adds, each rounded, then the kind-3 scaling and POST.
R66: kind 0: the segment and position of a scaled input, clamped or extrapolated at its ends; a NaN input gives the
canonical NaN, and so does a scaled input that is a NaN (log entry 23).
R65, R67: a use of a unit while a load is in progress is a schedule collision, one with a bad descriptor a descriptor
fault. -/
def Obligations.TableEvaluation : Prop :=
  (∀ (s : State) (c v : Nat) (vd va vb : BitVec 5) (m : BitVec 3), canIssueVec s c v = true →
     let core := vecCore v (clusterAt s c)
     let y (u : TableUnit) (l : Nat) : FRes := tabEval u (lane (vOf s c v va) l)
     let usable (u : TableUnit) : Prop := tabLoading s.lc u = false ∧ tabOk (tabDesc u) = true
     (aloneV s c v 9 vd.toNat = true →
       (usable core.fwd → exec (.teval c v vd va m 0) s = .next (vecComputes s c v 9 vd (mOf s c v m) (y core.fwd))) ∧
       (usable core.der → exec (.teval c v vd va m 1) s = .next (vecComputes s c v 9 vd (mOf s c v m) (y core.der)))) ∧
     (aloneV s c v 12 vd.toNat = true → usable core.der →
       exec (.tgrad c v vd va vb m 0) s = .next (vecComputes s c v 12 vd (mOf s c v m) (fun l =>
         let z := roundF32 ((f32 (lane (vOf s c v vb) l)).mul (f32 (y core.der l).bits))
         { z with ovf := (y core.der l).ovf || z.ovf }))) ∧
     (tabLoading s.lc core.fwd = true → ∃ t, exec (.teval c v vd va m 0) s = .next t ∧ safeWith 0x03 t) ∧
     (tabLoading s.lc core.fwd = false → tabOk (tabDesc core.fwd) = false →
       ∃ t, exec (.teval c v vd va m 0) s = .next t ∧ safeWith cDescriptor t)) ∧
  (∀ (u : TableUnit) (x : W32) (idx : Nat) (t : FVal) (n : Int), tabPos (tabDesc u) x = .seg idx t n →
     let fma (p : W32) (i : Nat) : W32 := (roundF32 (((f32 p).mul t).add (coef u idx i))).bits
     let p := (roundF32 (((coef u idx 3).mul t).add (coef u idx 2))).bits
     let y := fma (fma p 1) 0
     let y := if tabKind (tabDesc u) = 3 then (roundF32 ((f32 y).mul (.fin false 1 n))).bits else y
     let y := if tabPost (tabDesc u) = 1 then (roundF32 ((f32 y).mul (f32 x))).bits else y
     (tabEval u x).bits = y) ∧
  (∀ (d : Nat) (x : W32),
     ((f32 x).isNaN = true → tabPos d x = .done { bits := 0x7FC00000, nan := true, ovf := false }) ∧
     (∀ u : TableUnit, tabDesc u = d → tabOk d = true → (f32 x).isNaN = false →
       (tabKind d = 0 ∧ (f32 (fmul32 (fsub32 x (tabBase d)).bits (tabScale d)).bits).isNaN = true ∨
        tabKind d = 3 ∧ (f32 (fmul32 x (tabScale d)).bits).isNaN = true) →
       (tabEval u x).bits = 0x7FC00000 ∧ (tabEval u x).nan = true) ∧
     ((f32 x).isNaN = false → tabKind d = 0 →
       let w := f32 (fmul32 (fsub32 x (tabBase d)).bits (tabScale d)).bits
       (w = .inf true → tabPos d x = .seg 0 (.fin false 0 0) 0) ∧
       (w = .inf false → tabPos d x = .seg 255 (.fin false 1 0) 0) ∧
       (w.finite = true → floorVal w < 0 →
         tabPos d x = .seg 0 (if tabEdge d = 0 then .fin false 0 0 else w) 0) ∧
       (w.finite = true → 256 ≤ floorVal w → tabEdge d = 0 → tabPos d x = .seg 255 (.fin false 1 0) 0) ∧
       (w.finite = true → 0 ≤ floorVal w → floorVal w < 256 →
         tabPos d x = .seg (floorVal w).toNat (w.add (.fin true (floorVal w).natAbs 0)) 0)))

/-- R60, R70, R128: CVT converts the 32 elements of VA one by one, with the rounding its RM names, and packs the codes
at the low end of VD after four lc; stochastic rounding draws 32 words and moves IBASE on (R54, R78). Events count
for elements whose destination lane is active (log entry 21).
R44, R128: packed elements lie from the low end upward: element i of a packed register is code i, and the bytes
above the elements are zero.
R60, R70, R71, R128: the other conversions: MX blocks with their scales, grid integers, sign bits to ±1.0. A grid
scale that is not finite and above zero is a carry fault. -/
def Obligations.Conversions : Prop :=
  (∀ (s : State) (c v : Nat) (vd va : BitVec 5) (m : BitVec 3) (src dst : BitVec 4) (rm : BitVec 2),
     canIssueVec s c v = true → cvtOk src.toNat dst.toNat rm.toNat = true → aloneV s c v 4 vd.toNat = true →
     let g := (vecCore v (clusterAt s c)).gen
     let r (i : Nat) : CRes :=
       cvtElem src.toNat dst.toNat (if rm = 1 then stochShift ((drawAt g i).toNat % 65536) else rneShift)
         (elemAt src.toNat (lanesBytes (vOf s c v va)) i)
     let n (p : CRes → Bool) : Nat :=
       ((List.range 32).filter (fun i =>
         (mOf s c v m).getLsbD (fmtWidth dst.toNat * i / 32) && p (r i))).length
     exec (.cvt c v vd va m src dst rm) s = .next (vecPassed s c v (fun cl =>
       let cl := later (s.lc + 4)
         (.v v vd.toNat (packReg (fmtWidth dst.toNat) ((List.range 32).map (fun i => (r i).code))) (mOf s c v m)) cl
       laterNum (s.lc + 4) (n (fun x => x.nan)) (n (fun x => x.inf)) (n (fun x => x.sat))
         (if rm = 1 then later (s.lc + 1) (.adv v) cl else cl)))) ∧
  (∀ (fmt : Nat) (codes : List Nat), fmt ∈ [1, 2, 3, 4, 5, 6, 7] → codes.length = 32 →
     (∀ i : Nat, i < 32 →
       elemAt fmt (lanesBytes (packReg (fmtWidth fmt) codes)) i = codes.getD i 0 % 2 ^ fmtWidth fmt) ∧
     (∀ j : Nat, 4 * fmtWidth fmt ≤ j → (lanesBytes (packReg (fmtWidth fmt) codes)).getD j 0 = 0)) ∧
  (∀ (s : State) (c v : Nat) (vd va vb vc : BitVec 5) (m : BitVec 3) (fmt : BitVec 4) (rm : BitVec 2),
     canIssueVec s c v = true →
     let a := vOf s c v va
     let mask := mOf s c v m
     (isMx fmt.toNat = true → rm.toNat < 2 → aloneV s c v 6 vd.toNat = true → aloneV s c v 6 vc.toNat = true → vd ≠ vc →
       let g := (vecCore v (clusterAt s c)).gen
       let r := toMx fmt.toNat (fun i => if rm = 1 then stochShift ((drawAt g i).toNat % 65536) else rneShift) (a.map f32)
       let sat := ((List.range 32).filter (fun i =>
         mask.getLsbD (mxWidth fmt.toNat * i / 32) && r.2.2.2.contains i)).length
       exec (.cvtmx c v vd va vc m fmt rm) s = .next (vecPassed s c v (fun cl =>
         let cl := later (s.lc + 6) (.v v vd.toNat (packReg (mxWidth fmt.toNat) r.2.1) mask) cl
         let cl := later (s.lc + 6)
           (.v v vc.toNat (mkLanes (fun l => if l = 0 then BitVec.ofNat 32 r.1 else 0)) mask) cl
         laterNum (s.lc + 6) (b2n (r.2.2.1 && mask.getLsbD 0)) 0 sat
           (if rm = 1 then later (s.lc + 1) (.adv v) cl else cl)))) ∧
     (isMx fmt.toNat = true → aloneV s c v 6 vd.toNat = true →
       exec (.cvtxf c v vd va vb m fmt) s = .next (vecComputes s c v 6 vd mask (fun l =>
         roundF32 ((elemVal fmt.toNat (elemAt fmt.toNat (lanesBytes a) l)).mul
           (scaleVal ((lane (vOf s c v vb) 0).toNat % 256)))))) ∧
     (vd.toNat % 2 = 0 → aloneV s c v 4 vd.toNat = true → aloneV s c v 4 (vd.toNat + 1) = true →
       let sc := f32 (lane (vOf s c v vb) 0)
       let r (l : Nat) : Int × Bool := toGrid (f32 (lane a l)) sc
       (sc.finite = true → sc.isZero = false → sc.negative = false →
         exec (.cvtg c v vd va vb m) s = .next (vecPassed s c v (fun cl =>
           laterNum (s.lc + 4) 0 0 (countLanes mask (fun l => (r l).2)) (vecWide s v 4 vd mask (fun l => (r l).1) cl)))) ∧
       (sc.finite = false ∨ sc.isZero = true ∨ sc.negative = true →
         ∃ t, exec (.cvtg c v vd va vb m) s = .next t ∧ safeWith 0x0A t)) ∧
     (va.toNat < 8 → aloneV s c v 4 vd.toNat = true →
       exec (.cvtsf c v vd va m) s = .next (vecMoves s c v 4 vd mask (fun l =>
         if (readM v va.toNat (clusterAt s c)).getLsbD l then 0xBF800000 else 0x3F800000))))

/-- R72, R73: the sign count of a lane from a finite sum: the count moves down when the sum is below zero and up
otherwise, and the scale moves the sum towards zero; a sum that is not finite resets the lane. The results are seen
after six lc, resets of active lanes count, and a scale that is not finite or below zero is a carry fault.
R74, R76: the digest instructions: DBEGIN takes TID, ROW, COL and FMT from lanes 0 to 3 and counts a tile it
discards; DFOLD and DFOLDT fold words; DEND adds the hash to D after twelve lc, DCLR clears D.
R44, R74, R76: folding a tile register by register gives the tile hash of its bytes, with those past the data of an MXFP6 tile as
zero. -/
def Obligations.SignCountsAndDigests : Prop :=
  ((∀ g e n sb : W32,
     let a := fadd32 g e
     ((f32 a.bits).finite = true → (f32 a.bits).negative = true →
       signCount g e n sb = ((fadd32 a.bits sb).bits, n - 1, false)) ∧
     ((f32 a.bits).finite = true → (f32 a.bits).negative = false →
       signCount g e n sb = ((fsub32 a.bits sb).bits, n + 1, false)) ∧
     ((f32 a.bits).finite = false → signCount g e n sb = (0, n + 1, true))) ∧
   (∀ (s : State) (c v : Nat) (vd va vb vc sreg : BitVec 5) (m : BitVec 3), canIssueVec s c v = true →
     let sb := lane (vOf s c v sreg) 0
     let mask := mOf s c v m
     let r (l : Nat) : W32 × W32 × Bool :=
       signCount (lane (vOf s c v va) l) (lane (vOf s c v vb) l) (lane (vOf s c v vc) l) sb
     ((f32 sb).finite = true → (f32 sb).negative = false → vd ≠ vc →
       aloneV s c v 6 vd.toNat = true → aloneV s c v 6 vc.toNat = true →
       exec (.scnt c v vd va vb vc sreg m) s = .next (vecPassed s c v (fun cl =>
         let cl := later (s.lc + 6) (.v v vd.toNat (mkLanes (fun l => (r l).1)) mask) cl
         let cl := later (s.lc + 6) (.v v vc.toNat (mkLanes (fun l => (r l).2.1)) mask) cl
         { cl with cnt := { cl.cnt with scReset := satAdd cl.cnt.scReset (countLanes mask (fun l => (r l).2.2)) } }))) ∧
     ((f32 sb).finite = false ∨ (f32 sb).negative = true →
       ∃ t, exec (.scnt c v vd va vb vc sreg m) s = .next t ∧ safeWith 0x0A t))) ∧
  (∀ (s : State) (c v : Nat) (va : BitVec 5) (cnt : BitVec 4), canIssueVec s c v = true →
     let x := vOf s c v va
     let core := vecCore v (clusterAt s c)
     exec (.dbegin c v va) s = .next (vecPassed s c v (fun cl =>
       updVec v (fun y => { y with tile :=
           { s := 0, tid := lane x 0, row := BitVec.ofNat 32 ((lane x 1).toNat % 2 ^ 24),
             col := BitVec.ofNat 32 ((lane x 2).toNat % 2 ^ 24), fmt := BitVec.ofNat 32 ((lane x 3).toNat % 2 ^ 8),
             words := 0, inProg := true } })
         (if core.tile.inProg then { cl with cnt := { cl.cnt with digAbandon := satAdd cl.cnt.digAbandon 1 } } else cl))) ∧
     exec (.dfold c v va) s = .next (vecPassed s c v
       (updVec v (fun y => { y with tile := y.tile.fold (foldWords x) }))) ∧
     (cnt ≠ 0 → exec (.dfoldt c v va cnt) s = .next (vecPassed s c v
       (updVec v (fun y => { y with tile := y.tile.fold ((foldWords x).take cnt.toNat) })))) ∧
     exec (.dend c v) s = .next (vecPassed s c v (fun cl =>
       later (s.lc + 12) (.dig v (hashEnd core.tile.s core.tile.words))
         (updVec v (fun y => { y with tile := { y.tile with inProg := false } }) cl))) ∧
     exec (.dclr c v) s = .next (vecPassed s c v (later (s.lc + 1) (.dclr v)))) ∧
  (∀ (t : TileState) (rows : List Lanes), t.s = 0 → t.words = 0 → (∀ x ∈ rows, x.length = 32) →
     let u := rows.foldl (fun t x => t.fold (foldWords x)) t
     let bytes := rows.flatMap lanesBytes
     let stored := if t.fmt = 6 then bytes.take 12288 ++ zeros (min bytes.length 16384 - 12288) ++ bytes.drop 16384 else bytes
     hashEnd u.s u.words = tileHash t.tid.toNat t.row.toNat t.col.toNat t.fmt.toNat stored)

/-- R87, R94, R99, R129: vector loads and stores: the lanes within WIDTH that the mask selects take the bytes as they
are in the issue lc, six lc later; a store commits in lc c + 2, and DREAD stores D as 16 bytes there. No byte of memory
changes in the issue lc. A guarded row is a scoreboard fault.
R61, R62, R127: POP takes the oldest row of the matrix-to-vector queue into half of VD, PUSH puts 32 bytes at the
end of the vector-to-matrix queue; an empty or full queue is a schedule collision.
R77, R78: the draws of the generator write VD alone, six lc later, and GST takes its next state from 32 bytes of memory; none of
them changes a byte of memory, a queue or another register in its lc. -/
def Obligations.VectorMemoryAndQueues : Prop :=
  (∀ (s : State) (c v : Nat) (vd va : BitVec 5) (m : BitVec 3) (x : VAddr) (a n : Nat), canIssueVec s c v = true →
     vecAddress s c v x = a →
     let cl := clusterAt s c
     (vecWidth x.width = some n → okAccess a n = true → guarded cl a n = false →
       (aloneV s c v 6 vd.toNat = true → cl.upsets = [] →
         exec (.ld c v vd m x) s = .next (vecPassed s c v (fun cl =>
           later (s.lc + 6) (.v v vd.toNat (lanesOf (Mem.read 0 cl.mem a n))
             (mOf s c v m &&& BitVec.ofNat 32 (2 ^ (n / 4) - 1))) (useBanks s.lc a n .read 0 cl)))) ∧
       exec (.st c v va x) s = .next (vecPassed s c v
         (writeMem (s.lc + 2) a ((lanesBytes (vOf s c v va)).take n) (if n = 8 then .narrow else .write)))) ∧
     (vecWidth x.width = some n → okAccess a n = true → guarded cl a n = true →
       (∃ t, exec (.ld c v vd m x) s = .next t ∧ safeWith 0x06 t) ∧
       (∃ t, exec (.st c v va x) s = .next t ∧ safeWith 0x06 t)) ∧
     (x.width = 0 → a % 16 = 0 → pBase ≤ a → a + 16 ≤ dataSize →
       exec (.dread c v x) s = .next (vecPassed s c v (fun cl =>
         writeMem (s.lc + 2) a (toLe 16 (vecCore v cl).dig.toNat) .narrow cl)))) ∧
  (∀ (s : State) (c v : Nat) (vd va : BitVec 5) (m : BitVec 3) (half : Bool), canIssueVec s c v = true →
     let cl := clusterAt s c
     (∀ (row : Bytes) (rest : List Bytes), cl.mvq = row :: rest → aloneV s c v 2 vd.toNat = true →
       exec (.pop c v vd m half) s = .next (vecPassed s c v (fun cl =>
         later (s.lc + 2) (.v v vd.toNat (lanesOf (if half then zeros 64 ++ row else row))
           (mOf s c v m &&& (if half then 0xFFFF0000 else 0x0000FFFF))) { cl with mvq := rest }))) ∧
     (cl.mvq = [] → ∃ t, exec (.pop c v vd m half) s = .next t ∧ safeWith 0x03 t) ∧
     (cl.vmq.length < 64 → exec (.push c v va) s = .next (vecPassed s c v (fun cl =>
       { cl with vmq := cl.vmq ++ [(lanesBytes (vOf s c v va)).take 32] }))) ∧
     (64 ≤ cl.vmq.length → ∃ t, exec (.push c v va) s = .next t ∧ safeWith 0x03 t)) ∧
  (∀ (s : State) (c v : Nat) (vd va : BitVec 5) (m : BitVec 3) (adv : Bool) (x : VAddr) (a : Nat),
     canIssueVec s c v = true → vecAddress s c v x = a →
     let cl := clusterAt s c
     let runs (i : Instr) : Prop :=
       ∃ t, exec i s = .next t ∧ (clusterAt t c).mem = cl.mem ∧ (clusterAt t c).mvq = cl.mvq ∧ (clusterAt t c).vmq = cl.vmq ∧
         (∀ r, readV v r (clusterAt t c) = readV v r cl) ∧ (clusterAt t c).s0 = cl.s0 ∧ (clusterAt t c).s1 = cl.s1 ∧
         { t with clusters := s.clusters } = s
     (aloneV s c v 6 vd.toNat = true → runs (.gdraw c v vd m adv) ∧ runs (.gdrawi c v vd va m)) ∧
     (x.width = 0 → okAccess a 32 = true → guarded cl a 32 = false → cl.upsets = [] →
       (¬∃ b, (s.lc, Late.gread v b) ∈ cl.late) → runs (.gst c v x)) ∧
     (x.width = 0 → okAccess a 32 = false → ∃ t, exec (.gst c v x) s = .next t ∧ safeWith 0x08 t) ∧
     (x.width = 0 → okAccess a 32 = true → guarded cl a 32 = true → ∃ t, exec (.gst c v x) s = .next t ∧ safeWith 0x06 t))

/-! ## The lattice mesh (07) -/

/-- R134, R136, R138: a router whose entry takes its outputs from its inputs passes the flits of the inputs on in the
same lc, with a fresh CHECK (R135), to be seen after the latency of the link; a local write of a data flit commits in
the next lc; and the router goes to its next lc. For a command that finds the router at such an entry: no reserved
combination, no adder, local read or landing slot, no look-ahead read four lc on, no flawed granule, and only sound
flits at inputs that the entry selects.
R135, R140: a flit with a wrong CHECK, a reserved kind or a non-zero reserved bit, and a flit that reaches a router
that steps no entry, are mesh faults: the safe state with cause 0x0C or a lower one of the same lc.
R375: a flit that crosses with a margin below 0.1 lc is a link error, whatever it carries.
R135: what a sender computes a receiver accepts: a data or landing flit with its CHECK is no link error. -/
def Obligations.RoutersPassSoundFlits : Prop :=
  (∀ (s : State) (c : Nat) (inp : Dir) (f : Flit), isCluster c = true → latticeRuns s = true → inPresent c inp = true →
     routerDone c s = false →
     let arrives : Instr := .flit c inp { flit := f, lowMargin := false }
     let cl := clusterAt s c
     let p := cl.pos
     let ent := routeEntry cl p.bank
     let e := ent p.entry
     let far := ((p.advance ent).advance ent).advance ent |>.advance ent
     let s' := presentFlit c inp f s
     let input (i : Nat) : Flit := flitAt s' c (dirs.getD (i - 1) .north) s.lc
     let pass (i : Nat) : Flit := if i = 0 then idleFlit else input i
     p.steps s.lc = true → routeReserved e = false → usesAdder e = false → usesRead e = false → slotLand e = false →
     (p.hold = true ∨ far.hold = true ∨ usesRead (ent far.entry) = false) → cl.ctlUpsets = [] →
     (∀ d : Dir, flitError (flitAt s' c d s.lc) = false ∧
       (flitKind (flitAt s' c d s.lc) = 0 ∨ selectsInput e (dirNum d + 1) = true)) →
     (srcLocal e = 0 ∨ (waddr e ≠ 0x7FFF ∧ flitKind (input (srcLocal e)) = 1)) →
     let cl1 := { cl with pos := p.advance ent, rpipe := cl.rpipe.filter (fun r => r.1 != s.lc) }
     let cl' := if srcLocal e = 0 then cl1
       else writeFrom false s.lc (writeAddr e p.j) (flitBytes (input (srcLocal e)).data) .write cl1
     ∃ t, exec arrives s = .next t ∧
       t.clusters = Tab.set Cluster.reset s.clusters c cl' ∧
       (∀ (d : Dir) (dst lat : Nat), outLink c d = some (dst, lat) → flitKind (pass (srcOut e (dirNum d))) ≠ 0 →
         { dst := dst, inp := opp d, due := s.lc + lat, flit := sealFlit (pass (srcOut e (dirNum d))),
           src := srcAt s' c (dirs.getD (srcOut e (dirNum d) - 1) .north) s.lc } ∈ t.wires) ∧
       (∀ x ∈ s.wires, (x.dst = c ∧ x.due = s.lc) ∨ x ∈ t.wires) ∧
       { t with wires := s.wires, clusters := s.clusters } = s) ∧
  (∀ (s : State) (c : Nat) (inp : Dir) (f : Crossing), isCluster c = true → latticeRuns s = true →
     inPresent c inp = true → routerDone c s = false →
     (flitError f.flit = true ∨ f.lowMargin = true ∨ ((clusterAt s c).pos.steps s.lc = false ∧ flitKind f.flit ≠ 0)) →
     ∃ t, exec (.flit c inp f) s = .next t ∧ safeWith 0x0C t) ∧
  (∀ (d : BitVec 256) (amem : Bool) (row part : Nat), part < 16 →
     flitError (dataFlit d) = false ∧ flitKind (dataFlit d) = 1 ∧ (dataFlit d).data = d ∧
     flitError (landFlit d amem row part) = false ∧ flitKind (landFlit d amem row part) = 2 ∧
     bits (landFlit d amem row part).side.toNat 29 20 = row % 1024 ∧
     bit (landFlit d amem row part).side.toNat 19 = amem ∧
     bits (landFlit d amem row part).side.toNat 18 15 = part)

/-- R103, R104, R150: in a landing slot the complete row that completed earliest leaves the landing queue and is written
to its wide row, where it counts at the end of its commit; a row outside every armed entry, and an empty queue while an
armed entry is gated (R151), are landing faults. For an entry that does nothing else, with no flit at the inputs.
R97: a landing write counts in the armed entries that hold its row, and an entry that has counted all it expects is
done; no other entry changes. -/
def Obligations.LandingQueue : Prop :=
  (∀ (s : State) (c : Nat), isCluster c = true → latticeRuns s = true → routerDone c s = false →
     let cl := clusterAt s c
     let p := cl.pos
     let ent := routeEntry cl p.bank
     let e := ent p.entry
     let far := ((p.advance ent).advance ent).advance ent |>.advance ent
     p.steps s.lc = true → routeReserved e = false → slotLand e = true → (∀ i, i ≠ 0 → selects e i = false) →
     (p.hold = true ∨ far.hold = true ∨ usesRead (ent far.entry) = false) → cl.ctlUpsets = [] →
     (∀ x ∈ s.wires, ¬(x.dst = c ∧ x.due = s.lc)) →
     let cl1 := { cl with pos := p.advance ent, rpipe := cl.rpipe.filter (fun r => r.1 != s.lc) }
     (∀ b, firstComplete cl.land = some b →
       (rowArmed cl b.amem b.row = true →
         exec (.landingWrite c) s = .next { s with
           clusters := Tab.set Cluster.reset s.clusters c
             (later (s.lc + 1) (.land b.amem b.row)
               (writeFrom false s.lc ((if b.amem then aBase else 0) + 512 * b.row)
                 ((List.range 16).flatMap (fun i => flitBytes ((Tab.get none b.parts i).getD 0))) .write
                 { cl1 with land := cl.land.filter (fun x => x != b) })) }) ∧
       (rowArmed cl b.amem b.row = false → ∃ t, exec (.landingWrite c) s = .next t ∧ safeWith 0x07 t)) ∧
     (firstComplete cl.land = none → cl.sb.any (fun x => x.2.st == SbSt.armed && x.2.gated) = true →
       ∃ t, exec (.landingWrite c) s = .next t ∧ safeWith 0x07 t)) ∧
  (∀ (cl : Cluster) (amem : Bool) (row i : Nat), Tab.wf Score.reset cl.sb = true →
     let e := Tab.get Score.reset cl.sb i
     let e' := Tab.get Score.reset (landCount amem row cl).sb i
     (e.st = .armed ∧ e.amem = amem ∧ e.first ≤ row ∧ row < e.first + e.rows →
       e'.landed = e.landed + 1 ∧ (e'.st = .done ↔ e.landed + 1 = e.expect) ∧ e'.expect = e.expect ∧ e'.rel = e.rel) ∧
     (¬(e.st = .armed ∧ e.amem = amem ∧ e.first ≤ row ∧ row < e.first + e.rows) → e' = e))

/-- R148, R189: a stack gate whose entry injects a landing flit sends the next 32 bytes of its staging list toward the
face the entry names; with nothing staged the slot stays idle. A gate whose entry extracts a data flit takes it off the
link into its buffer.
R147, R148, R256, R257: a gate at a ring die injects the next 32 bytes of the sluice that its entry names, as a landing flit
for the tile's row or as a data flit, six lc ahead, and the tile leaves the landing buffer with its last bytes; with no tile
accepted the slot stays idle. It extracts a data flit into the extraction buffer that the entry names; a full buffer is a
ring-extract fault, and a slot without a data flit a mesh-flit fault. -/
def Obligations.GatesInjectAndExtract : Prop :=
  (∀ (s : State) (g : Gate), gateExists g.id = true → latticeRuns s = true → gateAt s g.id = some g →
    gateDone g.id s = false → g.pos.steps s.lc = true → gateActive g = true → g.id.stackGate = true →
    let e := gateEntry g g.pos.bank g.pos.entry
    let moved := setGate { g with pos := g.pos.advance (gateEntry g g.pos.bank) } s
    let inK := stageKey g.id.site false (bits (gateObj e) 15 0)
    let outK := stageKey g.id.site true (bits (gateObj e) 15 0)
    (gateAct e = 1 → ∀ (amem : Bool) (rowNo : Nat) (row : Bytes) (rest : List (Bool × Nat × Bytes)),
      (stageAt s inK).rows = (amem, rowNo, row) :: rest →
      ∃ t, exec (.gateInject g.id) s = .next t ∧
        t.wires = s.wires ++ [{ dst := if gateFace e then gateSouth g.id else gateNorth g.id,
                                inp := if gateFace e then Dir.north else Dir.south, due := s.lc + gateDelay g.id,
                                flit := landFlit (flitOf (row.take 32)) amem rowNo (16 - row.length / 32),
                                src := gateSource g.id }] ∧
        t.gates = moved.gates ∧
        (∃ l, t.tier.stages = Tab.set StageList.none s.tier.stages inK l ∧
          l.rows = if (row.drop 32).isEmpty then rest else (amem, rowNo, row.drop 32) :: rest) ∧
        t.clusters = s.clusters ∧ t.stackMem = s.stackMem) ∧
    (gateAct e = 1 → (stageAt s inK).rows = [] → exec (.gateInject g.id) s = .next moved) ∧
    (gateAct e = 3 →
      let dst := if gateFace e then gateSouth g.id else gateNorth g.id
      let inp := if gateFace e then Dir.north else Dir.south
      let held := ((s.tier.stages.filter (fun t => t.1 / 131072 == g.id.site)).map (fun t => t.2.bytes.length)).foldl
        (· + ·) 0
      ∀ x, s.wires.find? (fun x => x.dst == dst && x.inp == inp && x.due == s.lc + gateDelay g.id) = some x →
        flitKind x.flit = 1 → held + 32 ≤ stackExtractSize →
        ∃ t, exec (.gateExtract g.id) s = .next t ∧ x ∉ t.wires ∧ t.gates = moved.gates ∧
          t.tier.stages = Tab.set StageList.none s.tier.stages outK
            { stageAt s outK with bytes := (stageAt s outK).bytes ++ flitBytes x.flit.data } ∧
          t.clusters = s.clusters ∧ t.stackMem = s.stackMem)) ∧
  (∀ (s : State) (g : Gate), gateExists g.id = true → latticeRuns s = true → gateAt s g.id = some g →
    gateDone g.id s = false → g.pos.steps s.lc = true → gateActive g = true → g.id.stackGate = false →
    let e := gateEntry g g.pos.bank g.pos.entry
    let moved := setGate { g with pos := g.pos.advance (gateEntry g g.pos.bank) } s
    let d := g.id.site
    let r := ringAt s d
    let i := bits (gateObj e) 14 0
    let x := sluiceAt s (sluiceKey d i)
    let mine := r.waiting.filter (fun t => t.sluice == i)
    let ix := x.landed - mine.length
    let south := gateFace e
    (gateAct e = 1 ∨ gateAct e = 2 →
      (mine.find? (fun t => t.index == ix) = none → exec (.gateInject g.id) s = .next moved) ∧
      (∀ (w : Waiting) (row : Bytes) (rest : List Bytes), mine.find? (fun t => t.index == ix) = some w → w.rows = row :: rest →
        let last := (row.drop 32).isEmpty && rest.isEmpty
        let data := flitOf (row.take 32)
        ∃ t, exec (.gateInject g.id) s = .next t ∧
          t.wires = s.wires ++ [{ dst := if south then gateSouth g.id else gateNorth g.id,
                                  inp := if south then Dir.north else Dir.south, due := s.lc + 6,
                                  flit := if gateAct e = 1 then
                                      landFlit data (bit x.row 15) (bits x.row 9 0 + ix * x.rowStep + w.next)
                                        (16 - row.length / 32)
                                    else dataFlit data,
                                  src := gateSource g.id }] ∧
          t.gates = moved.gates ∧
          (ringAt t d).bufUsed = (if last then r.bufUsed - w.size else r.bufUsed) ∧
          (last = true → (ringAt t d).waiting = removeFirst (fun y => y == w) r.waiting) ∧
          (last = false → ∃ w' ∈ (ringAt t d).waiting, w'.sluice = w.sluice ∧ w'.index = w.index ∧
            w'.rows = (if (row.drop 32).isEmpty then rest else row.drop 32 :: rest)) ∧
          (∀ q, q ≠ d → ringAt t q = ringAt s q) ∧ t.sluices = s.sluices ∧ t.clusters = s.clusters ∧
          t.stackMem = s.stackMem)) ∧
    (gateAct e = 3 →
      let dst := if south then gateNorth g.id else gateSouth g.id
      let inp := if south then Dir.south else Dir.north
      let b := bits (gateObj e) 3 0
      let buf := Tab.get [] r.extract b
      let there := s.wires.find? (fun y => y.dst == dst && y.inp == inp && y.due == s.lc + 6)
      (there.all (fun y => flitKind y.flit != 1) = true → ∃ t, exec (.gateExtract g.id) s = .next t ∧ safeWith 0x0D t) ∧
      (∀ y, there = some y → flitKind y.flit = 1 →
        (262144 < buf.length + 32 → ∃ t, exec (.gateExtract g.id) s = .next t ∧ safeWith 0x17 t) ∧
        (buf.length + 32 ≤ 262144 →
          ∃ t, exec (.gateExtract g.id) s = .next t ∧ y ∉ t.wires ∧ t.gates = moved.gates ∧
            t.rings = Tab.set Ring.reset s.rings d { r with extract := Tab.set [] r.extract b (buf ++ flitBytes y.flit.data) } ∧
            t.sluices = s.sluices ∧ t.clusters = s.clusters ∧ t.stackMem = s.stackMem))))

/-! ## Weirs (08) -/

/-- R162, R163, R169: the controller latches a condition of the awaited weir, or one deferred from the weir before, when
its unit reports it as holding; a condition that does not hold changes nothing.
R154, R166: the awaited weir releases in the lc after the last of its events, and not before: the controller awaits
the next weir with no message noted, the release is logged, and the segment is the relay's when conditions are deferred
(R169). For an lc without a fault, in the release too (R398); the condition that a relay choice leaves open is the next weir's.
R154, R163: a release leaves no condition latched but those of the next weir that hold already. -/
def Obligations.WeirReleases : Prop :=
  (∀ (s : State) (e : WeirEntry) (i : Nat) (x : Cond), awaited s = some e →
     (e.conds[i]? = some x → s.weir.latched.contains i = false → releasesNow s e = false →
       (condHolds s e.num x = true →
         ∃ t, exec (.conditionLatch false i) s = .next t ∧ t.weir.latched = insertNat i s.weir.latched ∧
           t.weir.deferred = s.weir.deferred ∧ { t with weir := s.weir } = s) ∧
       (condHolds s e.num x = false → exec (.conditionLatch false i) s = .next s)) ∧
     (∀ d, s.weir.deferred.find? (fun d => d.index == i) = some d → d.latched = false → releasesNow s e = false →
       condHolds s d.weirNum d.cond = true →
       ∃ t, exec (.conditionLatch true i) s = .next t ∧
         t.weir.deferred = s.weir.deferred.map (fun x => if x.index = i then { x with latched := true } else x) ∧
         t.weir.latched = s.weir.latched ∧ { t with weir := s.weir } = s)) ∧
  (∀ (s : State) (e : WeirEntry), awaited s = some e →
     (readyToRelease s e = false → exec .release s = .next s) ∧
     (let u := feedDescs s
      let r := finishLc u
      readyToRelease s e = true → s.weir.lastLc < s.lc → latticeRuns u = true → r.2 = [] → latticeRuns (releaseLc r.1) = true →
       ∃ t, exec .release s = .next t ∧ t.weir.await = s.weir.await + 1 ∧ t.weir.relIx = s.weir.await ∧
         t.weir.relLc = s.lc ∧ t.lastRelease = s.lc ∧
         t.weir.seg = !(openConds s e).isEmpty ∧
         t.weir.deferred.map (fun d => (d.index, d.weirNum, d.cond)) =
           (deferredOf s e).map (fun d => (d.index, d.weirNum, d.cond)) ∧
         t.weir.arrived = [] ∧ t.weir.landed = [] ∧ t.weir.relayPosted = false ∧
         (∀ i, t.weir.latched.contains i = true → ∃ n x, weirAt s (s.weir.await + 1) = some n ∧ n.conds[i]? = some x) ∧
         t.heat.hot = false ∧ t.weir.nextGear = releaseGear s ∧
         t.logs.weirCount = s.logs.weirCount + 1 ∧
         t.logs.weirs = Tab.set WeirRec.zero s.logs.weirs (s.logs.weirCount % 4096)
           (releaseRec s e (!(openConds s e).isEmpty) (releaseGear s))))

/-- R97, R118, R154: 128 lc after a release that is not the final weir's every participant resumes in one lc: S0 issues
after its WEIR, at the start of a loop body that the WEIR has ended (R114), or past the relay jump's target, 2,880 lc later
where the sentinel routine runs first (R179); the new gear applies (R181). For a RESUME in the lc before, in which nothing
faults and no weir releases, on S-mem without flawed granules.
R84, R179: the sentinel routine, whose hash the command carries (log entry 10), ends with S0 issuing again when the hash
is the expected one, and with a sentinel fault when it is not. For an expected digest in sound granules (R91). -/
def Obligations.ClustersResume : Prop :=
  (∀ (s : State) (p : Resume) (rest : List Resume) (e : WeirEntry), inRun s = true → State.canon s = true →
     s.weir.resumes = p :: rest → rest.all (fun q => q.at_ != p.at_) = true → p.at_ = s.lc + 1 → weirAt s p.ix = some e →
     (participants s).Nodup →
     (∀ w, awaited s = some w → releasesNow s w = false) →
     let v := feedDescs (latchAll s)
     let r := finishLc v
     let u := r.1
     latticeRuns v = true → r.2 = [] → (∀ c ∈ participants s, (clusterAt u c).ctlUpsets = []) →
     ∃ t, exec .resume s = .next t ∧ t.lc = p.at_ ∧ t.weir.gear = p.gear ∧ t.weir.resumes = rest ∧
       t.weir.await = s.weir.await ∧
       (∀ c ∈ participants s,
         let a := clusterAt u c
         let b := clusterAt t c
         b.s0.pc = (if p.seg then a.resumeRelay else (wrapLoops a.s0.loops a.resumeMain).1) ∧
         b.s0.st = (if a.weirSent then .atWeir else .issuing) ∧
         b.s0.ready = (if a.weirSent then p.at_ + 2880 else p.at_) ∧
         b.arriveSent = false ∧ b.landedSent = false ∧ b.mem = a.mem ∧ b.smem = a.smem ∧ b.s1 = a.s1 ∧ b.vecs = a.vecs) ∧
       (∀ c, c ∉ participants s → clusterAt t c = clusterAt u c) ∧
       t.stackMem = u.stackMem ∧ t.ports = u.ports) ∧
  (∀ s : State, s.weir.resumes = [] → exec .resume s = .next s) ∧
  (∀ (s : State) (c : Nat) (hash : W128), isCluster c = true → atSentinel s c = true →
     (clusterAt s c).s0.ready ≤ s.lc → (clusterAt s c).upsets = [] →
     let cl := clusterAt s c
     let want := leNat (Mem.read 0 cl.mem (sentScratch cl + 0x1FF0) 16)
     (hash.toNat = want →
       exec (.sentinelRoutine c hash) s = .next (setCluster c
         { sentinelWrites cl with s0 := { cl.s0 with st := .issuing }, weirSent := false } s)) ∧
     (hash.toNat ≠ want → ∃ t, exec (.sentinelRoutine c hash) s = .next t ∧ safeWith 0x0B t))

/-- R168, R171: a relay becomes eligible while only deferred conditions are outstanding, and the steward posts the choice
once; it is not posted when it is not eligible.
R165: when the deadline of a weir passes before its release, the run ends in the safe state, and the event log names the
weir, each condition not latched and each participant whose message is missing (log entry 66); HOLD pauses the count,
and a release whose last event falls in that lc, or before, takes place.
R164, R167, R168: WEIR_CTRL: HOLD and RELAY_DIS take the value written while the host reaches the engine, and HOLD
withdraws the decision of a weir that is not yet due. -/
def Obligations.WeirDecisions : Prop :=
  (∀ (s : State) (e : WeirEntry), awaited s = some e →
     (relayOpen s e = true → exec .relayEligible s = .next { s with weir := { s.weir with eligible := true } }) ∧
     (relayOpen s e = false → exec .relayEligible s = .next s) ∧
     (relayOpen s e = true → s.weir.eligible = true → s.weir.relayPosted = false →
       ∃ t, exec .relayChoice s = .next t ∧ t.weir.relayPosted = true ∧ t.weir.latched = s.weir.latched ∧
         t.weir.arrived = s.weir.arrived ∧ { t with weir := s.weir } = s) ∧
     (s.weir.eligible = false → exec .relayChoice s = .next s)) ∧
  (∀ (s : State) (e : WeirEntry), awaited s = some e → gathers s = true → s.weir.arrived ≠ [] →
     (s.weir.hold = true → exec .weirDeadline s = .next s) ∧
     (let u := latchAll s
      s.weir.hold = false → readyToRelease u e = false →
       ∃ t, exec .weirDeadline s = .next t ∧ safeWith 0x02 t ∧ t.weir.phase = .expired ∧ t.weir.await = s.weir.await ∧
         s.logs.eventCount + 1 + (openConds u e).length + (u.weir.deferred.filter (fun d => !d.latched)).length +
           ((participants s).filter (fun c => !(s.weir.arrived.contains c && s.weir.landed.contains c))).length ≤
           t.logs.eventCount) ∧
     (s.weir.hold = false → readyToRelease (latchAll s) e = true → exec .weirDeadline s = .next s)) ∧
  (∀ (s : State) (v : Bool), mailboxUp s = true →
     exec (.relayDis v) s = .next { s with weir := { s.weir with relayDis := v } } ∧
     (∃ t, exec (.hold v) s = .next t ∧ t.weir.hold = v ∧ t.weir.await = s.weir.await ∧
       t.weir.arrived = s.weir.arrived ∧ t.weir.relayDis = s.weir.relayDis ∧
       (v = true → inRun s = true → s.weir.await < weirCount s → s.weir.due = none → t.weir.decided = false) ∧
       (v = false → inRun s = true → s.weir.await < weirCount s → t.weir.decided = true) ∧
       { t with weir := s.weir } = s))

/-- R178: from the due point the steward makes the digest reads of a weir in order: each appends a record with the 16
bytes of the participant's memory.
R161: 128 lc after the final release, with no shard check pending and every audit agreeing, the engine is in
configured-idle, and the run's end is logged and raised on MSI-X vector 3.
R154, R179: a run goes on through its weirs: RESUME lets the participants of a released weir issue again, and a cluster whose
sentinel routine ends with the expected digest issues, with every byte outside the scratch range as it was. -/
def Obligations.DigestsAndRunEnd : Prop :=
  (∀ (s : State) (e : WeirEntry) (i : Nat) (g : DigRead), awaited s = some e → e.digs[i]? = some g →
     gathers s = true → s.weir.due ≠ none → s.weir.digsDone = i → (clusterAt s (cnum g.x g.y)).upsets = [] →
     ∃ t, exec (.digestRead i) s = .next t ∧ t.weir.digsDone = i + 1 ∧
       t.logs.digestCount = s.logs.digestCount + 1 ∧
       t.logs.digests = Tab.set DigestRec.zero s.logs.digests (s.logs.digestCount % 8192)
         { digest := BitVec.ofNat 128 (leNat (Mem.read 0 (clusterAt s (cnum g.x g.y)).mem g.addr 16)), tid := g.tid,
           weir := e.num, step := s.runBlk.step } ∧
       t.dev.st = s.dev.st ∧ t.lc = s.lc ∧ t.stackMem = s.stackMem) ∧
  (∀ s : State, inRun s = true → s.weir.phase = .released → weirCount s ≤ s.weir.relIx + 1 →
     s.weir.relLc + 128 ≤ s.lc → s.tier.writes = [] → checksPending s = false → auditOk s = true →
     (∀ e ∈ s.queues, tqCountsOk e.2 = true) →
     ∃ t, exec .runEnd s = .next t ∧ t.dev.st = .configured ∧ t.weir.phase = .noRun ∧ t.runBlk = RunBlock.reset ∧
       t.logs.eventCount = s.logs.eventCount + 1 ∧
       (∃ r, t.logs.events = Tab.set EventRec.zero s.logs.events (s.logs.eventCount % eventRing) r ∧ r.code = 0x0406 ∧
         r.data.take 8 = toLe 8 s.runBlk.step) ∧
       t.cxl = (raiseMsix 3 s).cxl ∧ t.clusters = s.clusters ∧ t.stackMem = s.stackMem ∧ t.queues = s.queues) ∧
  (∀ (s : State) (p : Resume) (e : WeirEntry), inRun s = true → State.canon s = true → s.weir.resumes = [p] →
     p.at_ = s.lc + 1 → weirAt s p.ix = some e → (participants s).Nodup →
     (∀ w, awaited s = some w → releasesNow s w = false) →
     let v := feedDescs (latchAll s)
     let r := finishLc v
     let u := r.1
     latticeRuns v = true → r.2 = [] → (∀ c ∈ participants s, (clusterAt u c).ctlUpsets = []) →
     ∃ t, exec .resume s = .next t ∧ t.dev.st = .running ∧ t.lc = p.at_ ∧ t.weir.resumes = [] ∧
       (∀ c ∈ participants s, (clusterAt u c).weirSent = false → (clusterAt t c).s0.st = .issuing)) ∧
  (∀ (s : State) (c : Nat) (hash : W128), isCluster c = true → atSentinel s c = true →
     (clusterAt s c).s0.ready ≤ s.lc → (clusterAt s c).upsets = [] → State.canon s = true →
     let a := sentScratch (clusterAt s c)
     hash.toNat = leNat (Mem.read 0 (clusterAt s c).mem (a + 0x1FF0) 16) →
     ∃ t, exec (.sentinelRoutine c hash) s = .next t ∧ (clusterAt t c).s0.st = .issuing ∧
       (∀ b, b < a ∨ a + 0x1FF0 ≤ b → Tab.get 0 (clusterAt t c).mem b = Tab.get 0 (clusterAt s c).mem b) ∧
       (∀ d, d ≠ c → clusterAt t d = clusterAt s d) ∧ { t with clusters := s.clusters } = s)

/-! ## Ports, sluices and shards (11 to 13) -/

/-- R256: a whole tile for a closed sluice is parked with its full length reserved in the landing buffer, or waits in its
port's lane when the buffer or the 1,024 parking places are full.
R256: the first stalled frame for which space can be reserved is judged: one for a closed sluice is parked then, and
leaves the lane that it held.
R253: a draining sluice whose tiles have all landed becomes closed; one with tiles waiting stays. -/
def Obligations.SluicesParkAndDrain : Prop :=
  (∀ (s : State) (p vl : Nat) (f : Bytes), admitsBulk s p vl 1 f → comesWhole s p vl f → State.canon s = true →
     s.tier.writes = [] →
     let d := sluiceOwner s (p / 2) (fIndex f)
     let x := sluiceAt s (sluiceKey d (fIndex f))
     let r := ringAt s d
     x.present = true → x.st = .closed →
     (bufferUsed s d + reserved f ≤ landingSize → r.parked.length < 1024 →
       ∃ t, exec (.tile p vl f) s = .next t ∧ (ringAt t d).bufUsed = r.bufUsed + reserved f ∧
         (ringAt t d).parked = r.parked ++ [{ sluice := fIndex f, port := p, vl := vl, isMarker := false, bytes := f }] ∧
         (ringAt t d).stalled = r.stalled ∧ t.stackMem = s.stackMem ∧ t.clusters = s.clusters) ∧
     (landingSize < bufferUsed s d + reserved f ∨ 1024 ≤ r.parked.length →
       ∃ t, exec (.tile p vl f) s = .next t ∧ (ringAt t d).bufUsed = r.bufUsed ∧ (ringAt t d).parked = r.parked ∧
         (ringAt t d).stalled = r.stalled ++ [{ port := p, vl := vl, bytes := f }] ∧ t.sluices = s.sluices ∧
         t.stackMem = s.stackMem ∧ t.clusters = s.clusters)) ∧
  (∀ (s : State) (d : Nat) (f : Stalled), d < 12 → isSafe s = false → State.canon s = true → f.vl < 8 →
     s.tier.writes = [] → whole f.bytes = true →
     (ringAt s d).stalled.find? (canReserve s d) = some f →
     (sluiceAt s (sluiceKey d (fIndex f.bytes))).present = true →
     (sluiceAt s (sluiceKey d (fIndex f.bytes))).st = .closed →
     ∃ t, exec (.landingBufferReserve d) s = .next t ∧
       (ringAt t d).stalled = removeFirst (fun x => x == f) (ringAt s d).stalled ∧
       (ringAt t d).bufUsed = (ringAt s d).bufUsed + reserved f.bytes ∧
       (ringAt t d).parked = (ringAt s d).parked ++
         [{ sluice := fIndex f.bytes, port := f.port, vl := f.vl, isMarker := false, bytes := f.bytes }] ∧
       t.stackMem = s.stackMem ∧ t.clusters = s.clusters) ∧
  (∀ (s : State) (d i : Nat), d < 12 → i < 32768 → isSafe s = false →
     (sluiceAt s (sluiceKey d i)).st = .draining →
     ((ringAt s d).waiting.any (fun t => t.sluice == i) = false →
       exec (.sluiceDrained d i) s = .next { s with
         sluices := Tab.set Sluice.reset s.sluices (sluiceKey d i) { sluiceAt s (sluiceKey d i) with st := .closed } }) ∧
     ((ringAt s d).waiting.any (fun t => t.sluice == i) = true → exec (.sluiceDrained d i) s = .next s))

/-- R238, R246: a training port that gains PCS lock sends LINK_INIT; it is up once it has sent and received LINK_INIT,
with the partner's identity from the frame, and the link-up is logged (R367). For a port with no bulk frame posted.
R246, R401: a CEASE makes an up port CEASED with no bulk frame left to send, and logs it. -/
def Obligations.LinkComesUpAndCeases : Prop :=
  (∀ (s : State) (p : Nat) (frame : Bytes), p < 24 → (portAt s p).st = .training → (portAt s p).txq = [] →
     ((portAt s p).initSent = false → (portAt s p).initRx = false → (portAt s p).ctlq = [] →
       (portAt s p).retry.length < 4096 →
       ∃ t, exec (.pcsLock p) s = .next t ∧ (portAt t p).initSent = true ∧ (portAt t p).st = .training ∧
         (portAt t p).retry = (portAt s p).retry ++
           [{ ch := 8, seq := (portAt s p).ctlSend,
              bytes := makeFlit 2 0 0 (portAt s p).ctlSend
                (controlFrame (portAt s p) 1 (toLe 8 s.dev.physId.toNat ++ toLe 1 p)), owners := [(0, 1)] }] ∧
         (∀ q, q ≠ p → portAt t q = portAt s q) ∧ { t with ports := s.ports } = s) ∧
     ((portAt s p).initSent = false → (portAt s p).initRx = true →
       ∃ t, exec (.pcsLock p) s = .next t ∧ (portAt t p).st = .up ∧ t.logs.eventCount = s.logs.eventCount + 1) ∧
     ((portAt s p).initSent = true → admitsControl s p 1 frame →
       ∃ t, exec (.linkInit p frame) s = .next t ∧ (portAt t p).st = .up ∧
         (portAt t p).partnerId = BitVec.ofNat 64 (fieldB frame 8 8) ∧
         (portAt t p).partnerPort = BitVec.ofNat 8 (fieldB frame 16 1) ∧
         t.logs.eventCount = s.logs.eventCount + 1 ∧ (∀ q, q ≠ p → portAt t q = portAt s q) ∧
         t.clusters = s.clusters ∧ t.stackMem = s.stackMem)) ∧
  (∀ (s : State) (p : Nat) (frame : Bytes), admitsControl s p 3 frame → (portAt s p).st = .up → s.queues = [] →
     ∃ t, exec (.cease p frame) s = .next t ∧ (portAt t p).st = .ceased ∧ (portAt t p).txq = [] ∧
       t.logs.eventCount = s.logs.eventCount + 1 ∧ (∀ q, q ≠ p → portAt t q = portAt s q))

/-- R239, R242: a bad flit is counted and changes nothing else; a good bulk flit with the expected sequence is accepted,
which moves the expectation and FR on and sends its acknowledgement (log entry 33); a duplicate is counted and discarded.
For flits without acknowledgement and credit, on a port with nothing to send and a lane no audit waits on.
R239, R240: an acknowledgement frees the flits of its channel up to its sequence, and no others.
R242: the flits of a lane that nothing needs are freed: what stays occupied is what the waiting bytes need, freed and
occupied together stay the same, and the new limit, 4,096 above the freed count, goes out. -/
def Obligations.FlitsAndAcknowledgements : Prop :=
  (∀ (s : State) (p : Nat) (b : Bytes) (bad : Bool), p < 24 → streams (portAt s p) = true →
     (flitBad bad b = true →
       exec (.portFlit p b bad) s = .next (portCounts s p (fun c => { c with flitBad := satAdd c.flitBad 1 }))) ∧
     (flitBad bad b = false → State.canon s = true → (portAt s p).txq = [] → (portAt s p).ctlq = [] →
       let h := flitHeader b
       let v := bits h 4 2
       let l := laneAt (portAt s p) v
       let seq := bits h 33 10
       bits h 1 0 = 1 → bits h 35 34 = 0 → bit h 67 = false →
       (seq = l.expect → l.expect < 2 ^ 24 → l.audit = none →
         ∃ t, exec (.portFlit p b bad) s = .next t ∧
           (laneAt (portAt t p) v).expect = (l.expect + 1) % 2 ^ 24 ∧ (laneAt (portAt t p) v).fr = (l.fr + 1) % 2 ^ 32 ∧
           (laneAt (portAt t p) v).gapAsked = false ∧ (portAt t p).retry = (portAt s p).retry ∧
           signalFlit 1 v seq none ∈ (portAt t p).out ∧
           ((laneAt (portAt t p) v).occ + (laneAt (portAt t p) v).freed) % 2 ^ 32 = (l.occ + 1 + l.freed) % 2 ^ 32 ∧
           (∀ w, w ≠ v → laneAt (portAt t p) w = laneAt (portAt s p) w) ∧
           (∀ q, q ≠ p → portAt t q = portAt s q) ∧ t.clusters = s.clusters ∧ t.stackMem = s.stackMem) ∧
       (2 ^ 23 ≤ (seq + 2 ^ 24 - l.expect) % 2 ^ 24 → l.expect < 2 ^ 24 →
         ∃ t, exec (.portFlit p b bad) s = .next t ∧
           (portAt t p).cnt.dupFlit = satAdd (portAt s p).cnt.dupFlit 1 ∧
           (portAt t p).lanes = (portAt s p).lanes ∧ (portAt t p).inbox = (portAt s p).inbox ∧
           (∀ q, q ≠ p → portAt t q = portAt s q) ∧ t.clusters = s.clusters ∧ t.stackMem = s.stackMem))) ∧
  (∀ (p : Port) (ch seq : Nat) (f : Sent), seq < 2 ^ 24 → f.seq < 2 ^ 24 → f ∈ p.retry →
     (f ∈ (ackFlits ch seq p).retry ↔ (f.ch ≠ ch ∨ 2 ^ 23 ≤ (seq + 2 ^ 24 - f.seq) % 2 ^ 24)) ∧
     (∀ g, g ∈ (ackFlits ch seq p).retry → g ∈ p.retry)) ∧
  (∀ (s : State) (p v : Nat), p < 24 → v < 8 → State.canon s = true → laneHeld s p v = false →
     let q := portAt s p
     let l := laneAt q v
     let need := (laneBytes q v + 239) / 240
     let t := freeLane p v s
     let m := laneAt (portAt t p) v
     (need < l.occ →
       m.occ = need ∧ m.freed = (l.freed + (l.occ - need)) % 2 ^ 32 ∧
       (portAt t p).out = q.out ++ (if streams q then [signalFlit 0 0 0 (some (v, 4096 + m.freed))] else []) ∧
       (∀ w, w ≠ v → laneAt (portAt t p) w = laneAt q w) ∧ (∀ r, r ≠ p → portAt t r = portAt s r) ∧
       { t with ports := s.ports } = s) ∧
     (l.occ ≤ need → t = s))

/-- R240, R241: a replay counts and resends the kept flits of its channel from the oldest on, and the ninth within 40 µs
starts a retrain instead; a completed retrain takes the port back to where it was and resends every kept flit, one not
completed takes it DOWN. -/
def Obligations.ReplayAndRetrain : Prop :=
  ∀ (s : State) (p ch : Nat), p < 24 → ch < 9 → State.canon s = true →
    let q := portAt s p
    (streams q = true → q.retry.any (fun f => f.ch == ch) = true → q.retrained = none →
      ∃ t, exec (.replayTimeout p ch) s = .next t ∧ (portAt t p).cnt.replays = satAdd q.cnt.replays 1 ∧
        (portAt t p).retry = q.retry ∧
        (let ninth := 8 ≤ (q.window.filter (fun x => decide (nowNs s < x + 40000))).length
         (ninth → (portAt t p).st = .retraining ∧ (portAt t p).back = q.st ∧ (portAt t p).out = q.out) ∧
         (¬ninth → (portAt t p).st = q.st ∧
           ∀ f, q.retry.find? (fun f => f.ch == ch) = some f →
             (portAt t p).out = q.out ++ ((q.retry.filter (fun g =>
               g.ch == ch && decide ((g.seq + 2 ^ 24 - f.seq) % 2 ^ 24 < 2 ^ 23))).map Sent.bytes))) ∧
        (∀ r, r ≠ p → portAt t r = portAt s r)) ∧
    (q.st = .retraining → q.initRx = false → q.txq = [] → q.ctlq = [] →
      (∃ t, exec (.retrainComplete p) s = .next t ∧ (portAt t p).st = q.back ∧
        (portAt t p).retrained = some (nowNs s) ∧ (portAt t p).retry = q.retry ∧
        (portAt t p).out = q.out ++ (q.retry.filter (fun f => f.ch != 9)).map Sent.bytes ∧
        (∀ r, r ≠ p → portAt t r = portAt s r) ∧ { t with ports := s.ports } = s)) ∧
    (q.st = .retraining → s.queues = [] →
      ∃ t, exec (.portDown p) s = .next t ∧ (portAt t p).st = .down ∧ (portAt t p).txq = [] ∧ (portAt t p).ctlq = [] ∧
        t.logs.eventCount = s.logs.eventCount + 1 ∧ (∀ r, r ≠ p → portAt t r = portAt s r)) ∧
    (q.st ≠ .retraining → exec (.retrainComplete p) s = .next s ∧ exec (.portDown p) s = .next s)

/-- R243: with every 65,536th first-sent flit of a lane, and with no other, the lane owes an AUDIT frame with its counters,
and the oldest owed one goes out; a received AUDIT whose FS the lane has reached must agree with the lane's counts, and a
difference is a credit-audit fault of the port; one whose FS is still to come waits. -/
def Obligations.CreditAudit : Prop :=
  (∀ (sealed : Bool) (l : Lane),
     let fs := (l.fs + 1) % 2 ^ 32
     (sentOn sealed l).fs = fs ∧
     (sentOn sealed l).audits = (if fs % 65536 = 0 then l.audits ++ [(fs, l.limit)] else l.audits)) ∧
  (∀ (s : State) (p v fs limit : Nat) (rest : List (Nat × Nat)), p < 24 → v < 8 → isSafe s = false →
    (portAt s p).st = .up → State.canon s = true → (laneAt (portAt s p) v).audits = (fs, limit) :: rest →
    diff32 fs limit ≤ 0 → (portAt s p).txq = [] → (portAt s p).ctlq = [] → (portAt s p).retry.length < 4096 →
    ∃ t, exec (.auditSend p v) s = .next t ∧
      (portAt t p).retry = (portAt s p).retry ++
        [{ ch := 8, seq := (portAt s p).ctlSend,
           bytes := makeFlit 2 0 0 (portAt s p).ctlSend
             (controlFrame (portAt s p) 2 (toLe 1 v ++ zeros 3 ++ toLe 4 fs ++ toLe 4 limit)), owners := [(0, 1)] }] ∧
      (laneAt (portAt t p) v).audits = rest ∧
      (∀ q, q ≠ p → portAt t q = portAt s q) ∧ { t with ports := s.ports } = s) ∧
  (∀ (s : State) (p : Nat) (frame : Bytes), admitsControl s p 2 frame → State.canon s = true → fieldB frame 8 1 < 8 →
    let v := fieldB frame 8 1
    let l := laneAt (portAt s p) v
    (l.fr = fieldB frame 12 4 → auditHolds l (fieldB frame 12 4) (fieldB frame 16 4) = true →
      ∃ t, exec (.audit p frame) s = .next t ∧ (laneAt (portAt t p) v).audit = none ∧ t.dev.st = s.dev.st ∧
        { t with ports := s.ports } = s) ∧
    (l.fr = fieldB frame 12 4 → auditHolds l (fieldB frame 12 4) (fieldB frame 16 4) = false →
      s.dev.st = .ready ∨ s.dev.st = .resident ∨ s.dev.st = .configured ∨ s.dev.st = .running →
      ∃ t, exec (.audit p frame) s = .next t ∧ safeWith 0x14 t) ∧
    (l.fr ≠ fieldB frame 12 4 →
      ∃ t, exec (.audit p frame) s = .next t ∧
        (laneAt (portAt t p) v).audit = some (fieldB frame 12 4, fieldB frame 16 4) ∧ t.dev.st = s.dev.st))

/-- R245, R247, R399: a frame error and a frame of another job or epoch are counted at the port and have no other effect;
in the safe state every bulk frame is discarded. The flits that the frame held are freed (R242).
R254: the checks of a TILE frame at its sluice, in order: no such sluice, a draining or marker sluice, bounds or
tensor, version, duplicate, a frame of the index in progress included: each counts in its own counter of the ring die and
changes nothing else there.
R254: a plain frame whose header and tile header have arrived and which passes the checks is in progress, and nothing else
changes. -/
def Obligations.FramesTurnedAway : Prop :=
  (∀ (s : State) (p vl : Nat) (f : Bytes), p < 24 → vl < 8 → (portAt s p).st ≠ .off → (portAt s p).st ≠ .down →
     fieldB f 0 1 = 1 → Tab.wf Port.reset s.ports = true →
     let u := taken s p vl f
     let freed (c : PortCnt → PortCnt) : Prop := exec (.tile p vl f) s = .next (freeLane p vl (portCounts u p c))
     fieldB f 1 1 = 0 ∨ 32 + fieldB f 8 4 ≤ f.length →
     (isSafe s = true → freed (fun c => { c with filterDrop := satAdd c.filterDrop 1 })) ∧
     (isSafe s = false → frameError (portAt s p).role vl f = true →
       freed (fun c => { c with frameBad := satAdd c.frameBad 1 })) ∧
     (isSafe s = false → frameError (portAt s p).role vl f = false → passesFilter (portAt s p) f = false →
       freed (fun c => { c with filterDrop := satAdd c.filterDrop 1 }))) ∧
  (∀ (s : State) (p vl : Nat) (f : Bytes), admitsBulk s p vl 1 f → comesWhole s p vl f → State.canon s = true →
     s.tier.writes = [] →
     let d := sluiceOwner s (p / 2) (fIndex f)
     let x := sluiceAt s (sluiceKey d (fIndex f))
     let u := taken s p vl f
     let tile := fBody f
     let counts (g : RingCnt → RingCnt) : Prop := exec (.tile p vl f) s = .next (freeLane p vl (ringCounts u d g))
     (x.present = false → counts (fun c => { c with sluIndex := satAdd c.sluIndex 1 })) ∧
     (x.present = true → x.st = .draining ∨ (x.marker = true ∧ x.st ≠ .closed) →
       counts (fun c => { c with sluLate := satAdd c.sluLate 1 })) ∧
     (x.present = true → (x.st = .opened ∨ x.st = .complete) → x.marker = false → x.carry = false →
       (x.count < fTile f + 1 ∨ tTid tile ≠ x.tid.toNat →
         counts (fun c => { c with sluBounds := satAdd c.sluBounds 1 })) ∧
       (fTile f < x.count → tTid tile = x.tid.toNat →
         (x.vsrc ≠ 0 → tVersion tile ≠ x.version → counts (fun c => { c with sluVersion := satAdd c.sluVersion 1 })) ∧
         ((x.vsrc = 0 ∨ tVersion tile = x.version) →
           x.bits.contains (fTile f) = true ∨ indexBusy s d (fIndex f) (fTile f) 1 = true →
           counts (fun c => { c with sluDup := satAdd c.sluDup 1 }))))) ∧
  (∀ (s : State) (p vl : Nat) (f : Bytes), admitsBulk s p vl 1 f → State.canon s = true → s.tier.writes = [] →
     let d := sluiceOwner s (p / 2) (fIndex f)
     let x := sluiceAt s (sluiceKey d (fIndex f))
     headSize ≤ f.length → whole f = false → (laneAt (portAt s p) vl).head = none → laneHeld s p vl = false →
     x.present = true → x.st = .opened → x.marker = false → x.carry = false → x.units = true → fTile f < x.count →
     tTid (fBody f) = x.tid.toNat → (x.vsrc = 0 ∨ tVersion (fBody f) = x.version) →
     x.bits.contains (fTile f) = false → indexBusy s d (fIndex f) (fTile f) 1 = false →
     ∃ t, exec (.tile p vl f) s = .next t ∧
       (∃ res passes, (laneAt (portAt t p) vl).head = some (f.take headSize, .inProgress d res passes)) ∧
       indexBusy t d (fIndex f) (fTile f) 1 = true ∧ t.sluices = s.sluices ∧ t.rings = s.rings ∧
       (∀ q, q ≠ p → portAt t q = portAt s q) ∧ { t with ports := s.ports } = s)

/-- R225, R254, R256: a sound tile that passes the checks of an open sluice lands: its index is marked, the sluice is
complete with its last tile, and the slot of its unit holds the tile frame, which makes the unit dirty. For a plain
sluice on resident units that no schedule or request waits for. -/
def Obligations.TileLandsInItsUnit : Prop :=
  ∀ (s : State) (p vl : Nat) (f : Bytes), admitsBulk s p vl 1 f → comesWhole s p vl f → State.canon s = true →
    s.tier.writes = [] →
    let d := sluiceOwner s (p / 2) (fIndex f)
    let k := sluiceKey d (fIndex f)
    let x := sluiceAt s k
    let i := fTile f
    let tile := fBody f
    let e := mapAt s (x.firstUnit + i)
    x.present = true → x.st = .opened → x.marker = false → x.carry = false → x.tee = false → x.units = true →
    isShard x = false → i < x.count → tTid tile = x.tid.toNat → (x.vsrc = 0 ∨ tVersion tile = x.version) →
    x.bits.contains i = false → indexBusy s d (fIndex f) i 1 = false → tileGood tile = true → s.queues = [] →
    (ringAt s d).reqs = [] →
    unitBar x.host (x.firstUnit + i) s = none →
    ∃ t, exec (.tile p vl f) s = .next t ∧
      (sluiceAt t k).landed = x.landed + 1 ∧ (sluiceAt t k).bits = insertNat i x.bits ∧
      (sluiceAt t k).st = (if x.landed + 1 = x.count then .complete else .opened) ∧
      t.stackMem = Mem.write 0 s.stackMem (slotKey e.stack e.slot) (slotOfFrame tile) ∧
      mapAt t (x.firstUnit + i) = { e with dirty := true } ∧
      (∀ j, j ≠ k → sluiceAt t j = sluiceAt s j) ∧ t.clusters = s.clusters ∧ t.dev = s.dev

/-- R246, R254, R265, R284: a MARKER lands at its open marker sluice; a DIGEST is filed in the port's ring of 32; a
COMMIT_ACK acknowledges the record it matches, and one that matches none counts as stray. -/
def Obligations.ControlFramesTakeEffect : Prop :=
  ∀ (s : State) (p : Nat) (f : Bytes), State.canon s = true →
    let u := taken s p 8 f
    (admitsControl s p 4 f →
      let d := sluiceOwner s (p / 2) (fieldB f 8 2 % 32768)
      let k := sluiceKey d (fieldB f 8 2 % 32768)
      let x := sluiceAt s k
      let i := fieldB f 10 2
      x.present = true → x.st = .opened → i < x.count → x.tid = 0 → x.bits.contains i = false →
      let x' := { x with bits := insertNat i x.bits, landed := x.landed + 1,
                         st := if x.landed + 1 = x.count then .complete else .opened }
      exec (.marker p f) s = .next { u with sluices := Tab.set Sluice.reset s.sluices k x' }) ∧
    (admitsControl s p 5 f →
      ∃ t, exec (.digest p f) s = .next t ∧ (portAt t p).digCount = (portAt s p).digCount + 1 ∧
        (portAt t p).digRing = Tab.set [] (portAt s p).digRing ((portAt s p).digCount % 32) (sliceB f 8 40) ∧
        (∀ q, q ≠ p → portAt t q = portAt s q) ∧ { t with ports := s.ports } = s) ∧
    (admitsControl s p 7 f →
      let b := (portAt s p).bundle
      (s.commits.any (commitMatches b f) = true → fieldB f 14 2 = 0 →
        exec (.commitAck p f) s = .next { u with
          commits := replaceFirst (commitMatches b f) (fun c => { c with acked := true }) s.commits }) ∧
      (s.commits.any (commitMatches b f) = true → fieldB f 14 2 ≠ 0 → inRun s = true →
        ∃ t, exec (.commitAck p f) s = .next t ∧ safeWith 0x1C t) ∧
      (s.commits.any (commitMatches b f) = false →
        exec (.commitAck p f) s = .next (ringCounts u (p / 2) (fun c => { c with commitStray := satAdd c.commitStray 1 }))))

/-- R274, R278: a shard request for tiles of another tensor or beyond the shard is discarded and counted; one for a closed
sluice or another version is held; one for an open sluice is served, and what has not landed yet waits.
R271, R272: the check of a complete shard: its status and count of the seal tile and the SHA-256 of its tiles; a
shard that agrees is checked and counted, a refused or differing one is fatal. On slots without flawed granules. -/
def Obligations.ShardRequestsAndChecks : Prop :=
  (∀ (s : State) (p vl : Nat) (f : Bytes), admitsBulk s p vl 5 f → State.canon s = true → s.tier.writes = [] →
     let d := sluiceOwner s (p / 2) (fIndex f)
     let x := sluiceAt s (sluiceKey d (fIndex f))
     let q := reqOf p f
     let r := ringAt s d
     q.ntiles ≠ 0 → x.present = true → x.marker = false → x.units = true →
     (x.tid ≠ q.tid →
       exec (.shardReq p vl f) s = .next (freeLane p vl (ringCounts (taken s p vl f) d (fun c =>
         { c with shardStale := satAdd c.shardStale 1 })))) ∧
     (x.tid = q.tid → x.st = .closed ∨ x.version ≠ q.version → (heldReqs s d).length < 256 →
       ∃ t, exec (.shardReq p vl f) s = .next t ∧ (ringAt t d).reqs = r.reqs ++ [q] ∧ (ringAt t d).cnt = r.cnt ∧
         t.stackMem = s.stackMem ∧ t.clusters = s.clusters) ∧
     (x.tid = q.tid → x.st = .opened → x.version = q.version → q.first + q.ntiles ≤ x.count → x.bits = [] →
       ∃ t, exec (.shardReq p vl f) s = .next t ∧
         (ringAt t d).reqs = r.reqs ++
           [{ q with served := true, left := (List.range q.ntiles).map (· + q.first) }] ∧
         t.stackMem = s.stackMem ∧ t.clusters = s.clusters)) ∧
  (∀ (s : State) (d idx : Nat) (rest : List Nat), d < 12 → isSafe s = false → State.canon s = true →
     (ringAt s d).checks = idx :: rest → s.stackUpsets = [] → s.tier.writes = [] →
     let k := sluiceKey d idx
     let x := sluiceAt s k
     let tile (i : Nat) : Bytes := (readUnit (x.firstUnit + i) s).1
     let last := tile (x.count - 1)
     let h := sha256 ((List.range (x.count - 1)).flatMap tile)
     x.check = 1 → x.count ≠ 0 →
     (sealStatus last = 0 → sealTiles last = x.count - 1 → sealDigest last = h →
       ∃ t, exec (.shardCheck d) s = .next t ∧ (sluiceAt t k).check = 2 ∧ (ringAt t d).checks = rest ∧
         (ringAt t d).cnt.shardChecks = satAdd (ringAt s d).cnt.shardChecks 1 ∧ t.dev.st = s.dev.st ∧
         t.stackMem = s.stackMem) ∧
     (inRun s = true → sealStatus last = 1 ∨ sealStatus last = 2 →
       ∃ t, exec (.shardCheck d) s = .next t ∧ safeWith 0x18 t) ∧
     (inRun s = true → sealStatus last = 0 → sealTiles last ≠ x.count - 1 ∨ sealDigest last ≠ h →
       ∃ t, exec (.shardCheck d) s = .next t ∧ safeWith 0x19 t))

/-- R228, R245: a lender answers a read of a lent slot with the tile on the same port and writes a lent slot; a slot
outside the lent range is discarded and counted. R259: an answer to a FETCH lands in its unit. -/
def Obligations.HomeTraffic : Prop :=
  ∀ (s : State) (p vl : Nat) (f : Bytes), State.canon s = true →
    (admitsBulk s p vl 2 f → lends s p = true →
      let flat := fieldB f 16 6
      (∀ n slot, lentSlot s p flat = some (n, slot) →
        ∃ t, exec (.homeWrite p vl f) s = .next t ∧
          t.stackMem = Mem.write 0 s.stackMem (slotKey n slot) ((slotOfFrame (fBody f)).take slotSize) ∧
          t.tier = s.tier ∧ t.dev = s.dev) ∧
      (lentSlot s p flat = none →
        ∃ t, exec (.homeWrite p vl f) s = .next t ∧ t.tier.drops = satAdd s.tier.drops 1 ∧ t.stackMem = s.stackMem)) ∧
    (admitsBulk s p vl 3 f → fieldB f 12 2 = 1 → s.stackUpsets = [] → ∀ n slot, lentSlot s p (fieldB f 16 6) = some (n, slot) →
      exec (.homeRead p vl f) s = .next (freeLane p vl (postBulk p 0
        (bulkFrame (portAt s p) 4 (fieldB (fBody f) 0 4) 0 (frameOfSlot (Mem.read 0 s.stackMem (slotKey n slot) slotSize))) 0
        (taken s p vl f)))) ∧
    (admitsBulk s p vl 4 f → s.tier.writes = [] → ∀ k r i, fetchOf s (fieldB f 12 4) (fieldB f 16 2) = some (k, r, i) →
      r.written.contains i = false → tileGood (fBody f) = true → (mapAt s (r.desc.dunit + i)).res = true →
      foreignUnit r.desc (r.desc.dunit + i) s = false →
      let e := mapAt s (r.desc.dunit + i)
      ∃ t, exec (.homeData p vl f) s = .next t ∧
        t.stackMem = Mem.write 0 s.stackMem (slotKey e.stack e.slot) (slotOfFrame (fBody f)) ∧
        mapAt t (r.desc.dunit + i) = { e with dirty := true } ∧
        (queueAt t k).running = (queueAt s k).running.map (fun x =>
          if x.no = r.no then { x with done := x.done + 1, written := insertNat i x.written } else x) ∧
        t.clusters = s.clusters ∧ t.dev = s.dev)

/-! ## Transfer queues, the tier engine, staging (10, 11) -/

/-- R258 to R262, R407: a descriptor that may start is counted as started and goes behind the running ones of its queue; one
with a port DOWN or CEASED, or a bad one, completes at once with its status. What it sends at its start, each tile on the
member of R251 and on its lane: COPY its tiles as TILE frames and, on an OUTLET bundle, with version STEP + 1 and with a
closing seal frame (R282), STORE as HOME_WRITE frames, from resident units or from the whole tiles that an extraction buffer
holds (R257); CARRY its lane tiles, SC ones packed into wire tiles (R297); PASS the tiles that its sluice has accepted; FETCH
one HOME_READ for each member; MARK its MARKER and COMMIT its COMMIT frame with the record of R283. A source unit that is not
resident ends it with NOT_RESIDENT. For units that the descriptor may touch (R220), without flawed granules, on plain ports.
A finished descriptor completes with OK: one completion more, its tag the latest completed, its 16-byte entry in the ring's
unit. A host descriptor that times out completes with status 1; a manifest descriptor's timeout is a transfer-queue fault. A
completion that cannot be entered in its ring, which is not resident, fails the audit of R407 (log entry 28); in a run a ring
under a foreign account is an ownership fault (R220). -/
def Obligations.DescriptorsRun : Prop :=
  (∀ (s : State) (q : Nat) (d : Desc), q < 24576 → isSafe s = false → State.canon s = true → s.tier.writes = [] →
    startable s q = some d →
    let qu := queueAt s q
    let no := if d.host then d.no else qu.started
    let ended (st : Nat) (t : State) : Prop :=
      (queueAt t q).started = qu.started + 1 ∧ (queueAt t q).completions = qu.completions + 1 ∧
        (queueAt t q).running = qu.running ∧ (queueAt t q).recent = ((d.tag, no) :: qu.recent).take 4096 ∧
        t.stackMem = (writeEntry q (ringEntry qu d st 0) s).stackMem ∧
        (∀ k, k ≠ q → queueAt t k = queueAt s k) ∧ t.clusters = s.clusters ∧ t.dev.st = s.dev.st
    let ringOk : Prop := (mapAt s qu.cring).res = true ∧ ringBarred qu s = false ∧ tqCountsOk qu = true
    (∀ r ∈ qu.running, r.no ≠ no) →
    (∀ st, startBar s q d = some st → d.host = true ∨ st = stOk →
      (ringOk → ∃ t, exec (.descriptorStart q) s = .next t ∧ ended st t) ∧
      (canFreeze s = true → ringBarred qu s = true → ∃ t, exec (.descriptorStart q) s = .next t ∧ safeWith 0x11 t) ∧
      (canFreeze s = true → (mapAt s qu.cring).res = false → tqCountsOk qu = true →
        ∃ t, exec (.descriptorStart q) s = .next t ∧ safeWith 0x16 t)) ∧
    (startBar s q d = none → d.host = true ∨ ownershipBar d s ≠ some cTierOwnership → s.stackUpsets = [] →
      (∀ p, (portAt s p).sealedReq = false) →
      let owner := ownerOf q d.tag
      let next := s.runBlk.step + 1
      let port (i : Nat) : Nat := framePort s q i
      let here (u : Nat) : Prop := (mapAt s u).res = true ∧ foreignUnit d u s = false
      let goes (sent done : Nat) (ports : Tab Port) (f : State → Running → Prop) : Prop :=
        ∃ t r, exec (.descriptorStart q) s = .next t ∧
          queueAt t q = { qu with started := qu.started + 1, running := qu.running ++ [r],
                                  next := if qu.manifest then qu.next + 1 else qu.next,
                                  descs := if qu.manifest then qu.descs else qu.descs.drop 1 } ∧
          r.desc = d ∧ r.no = no ∧ r.sent = sent ∧ r.done = done ∧ t.ports = ports ∧
          (∀ k, k ≠ q → queueAt t k = queueAt s k) ∧ t.clusters = s.clusters ∧ t.stackMem = s.stackMem ∧
          t.sluices = s.sluices ∧ t.dev = s.dev ∧ f t r
      (d.kind = 1 ∨ d.kind = 5 → (d.srcx = false → ∀ i, i < d.count → here (d.src + i)) →
        let outlet := onOutlet s q && d.kind == 1
        let buf := Tab.get [] (ringAt s (q / 2048)).extract d.src
        let size := extractSize d
        let n := if d.srcx then min d.count (buf.length / size) else d.count
        let tile (i : Nat) : Bytes := outTile outlet s
          (if d.srcx then
             buildTile { tid := d.tid.toNat, version := s.runBlk.step, row := d.trow, col := d.tcol + i, fmt := d.fmt,
                         shape := d.shape }
               (payloadOf d.fmt (buf.drop (i * size))) (((buf.drop (i * size)).drop payloadSize).take d.trb)
           else (readUnit (d.src + i) s).1)
        let frame (i : Nat) : Bytes :=
          if d.kind = 5 then bulkFrame (portAt s (port i)) 2 0 (d.home + i) (tile i)
          else bulkFrame (portAt s (port i)) 1 d.dsl (d.dfirst + i) (tile i)
        let tiles := (List.range n).foldl (fun u i => postBulk (port i) d.vl (frame i) owner u) s
        let whole := (List.range n).flatMap tile
        let closes := outlet && n == d.count
        let close := sealTile (tTid whole) next d.count (sha256 whole)
        goes n 0
          (if closes then
             (postFrame (port n) { vl := d.vl, bytes := bulkFrame (portAt s (port n)) 6 d.dsl (d.dfirst + n) close,
                                   fresh := true, owner := owner, tiles := 0, carry := false } tiles).ports
           else tiles.ports)
          (fun t _ =>
            t.seals = (if closes then s.seals ++ [{ bundle := queueBundle s q, tid := BitVec.ofNat 32 (tTid whole),
                                                    digest := sha256 whole }] else s.seals) ∧
            (d.srcx = true → Tab.get [] (ringAt t (q / 2048)).extract d.src = buf.drop (n * size)))) ∧
      (d.kind = 2 → d.srcx = false → 1 ≤ wireLanes s →
        (∀ i, i < d.count → here (d.src + i) ∧ carryCheck false true (hopsOut s) (readUnit (d.src + i) s).1 = 0) →
        let g := if packsLanes s d then wireLanes s else 1
        goes d.count 0
          ((List.range ((d.count + g - 1) / g)).foldl (fun u j =>
            let m := min g (d.count - g * j)
            let lanes := (List.range m).map (fun i => (readUnit (d.src + (g * j + i)) s).1)
            postFrame (port j)
              { vl := d.vl, fresh := true, owner := owner, tiles := m, carry := true,
                bytes := bulkFrame (portAt s (port j)) 1 d.dsl (d.dfirst + g * j)
                  (if packsLanes s d then packWire lanes else lanes.headD []) } u) s).ports
          (fun _ _ => True)) ∧
      (d.kind = 3 →
        let x := sluiceAt s (sluiceKey (sluiceOwner s (q / 2048) d.src) d.src)
        let ready := x.bits.filter (fun i => decide (i < d.count))
        x.units = true → (∀ i ∈ ready, here (x.firstUnit + i)) →
        goes 0 ready.length
          (ready.foldl (fun u i =>
            match bundlePort s (queueBundle s q) i with
            | none => u
            | some p => postBulk p d.vl (bulkFrame (portAt s p) 1 d.dsl (d.dfirst + i) (readUnit (x.firstUnit + i) s).1) owner u)
            s).ports
          (fun _ r => ∀ i, i ∈ r.written ↔ i ∈ ready)) ∧
      (d.kind = 4 →
        let m := queueSize s q
        goes 0 0
          ((List.range (min m d.count)).foldl (fun u j =>
            postBulk (port j) 6
              (bulkFrame (portAt s (port j)) 3 ((d.count - j + m - 1) / m) (d.home + j)
                (toLe 4 ((s.readIds + j) % 2 ^ 32) ++ toLe 2 m ++ zeros 2)) owner u) s).ports
          (fun t r => r.readId = s.readIds ∧ t.readIds = (s.readIds + m) % 2 ^ 32)) ∧
      (d.kind = 6 →
        goes 1 0 (postControl (q / 1024) 4 (toLe 2 d.dsl ++ toLe 2 d.dfirst ++ zeros 4 ++ toLe 6 d.home) owner s).ports
          (fun _ _ => True)) ∧
      (d.kind = 7 → here d.src →
        let b := (tPayload (readUnit d.src s).1).take 40
        let seals := sealsIn s (queueBundle s q) (fieldB b 8 4) (fieldB b 12 4)
        let d16 := (sha256 (seals.flatMap (fun x => x.digest))).take 16
        goes 1 0
          (postControl (q / 1024) 6
            (toLe 6 next ++ (b.drop 6).take 10 ++ toLe 4 seals.length ++ (b.drop 20).take 4 ++ d16) owner s).ports
          (fun t _ => t.commits = s.commits ++
            [{ bundle := queueBundle s q, version := next, seq := fieldB b 20 4, digest16 := d16,
               final := bit (fieldB b 6 2) 0, acked := false }])) ∧
      (d.kind ∈ [1, 5, 7] → d.kind = 7 ∨ d.srcx = false → (mapAt s d.src).res = false →
        (d.host = true → ringOk → ∃ t, exec (.descriptorStart q) s = .next t ∧ ended stNotResident t) ∧
        (d.host = false → canFreeze s = true → ∃ t, exec (.descriptorStart q) s = .next t ∧ safeWith 0x16 t)))) ∧
  (∀ (s : State) (q : Nat) (tag : W32) (r : Running), q < 24576 → isSafe s = false → State.canon s = true →
    s.tier.writes = [] → runOf s q tag = some r →
    let qu := queueAt s q
    let done (st n : Nat) (t : State) : Prop :=
      (queueAt t q).completions = qu.completions + 1 ∧ (queueAt t q).started = qu.started ∧
      (queueAt t q).running = qu.running.filter (fun x => x.no != r.no) ∧
      (queueAt t q).recent = ((r.desc.tag, r.no) :: qu.recent).take 4096 ∧
      t.stackMem = (writeEntry q (ringEntry qu r.desc st n) s).stackMem ∧
      (∀ k, k ≠ q → queueAt t k = queueAt s k) ∧ t.clusters = s.clusters ∧ t.dev.st = s.dev.st
    qu.running.filter (fun x => x.no == r.no) = [r] → tqCountsOk qu = true →
    (mapAt s qu.cring).res = true → ringBarred qu s = false →
    (finished s q r = true → ∃ t, exec (.descriptorComplete q tag) s = .next t ∧ done stOk (tilesDone s q r) t) ∧
    ((portsOf s q r.desc).all (fun p => (portAt s p).st == .up) = true →
      (r.desc.host = true → ∃ t, exec (.timeout q tag) s = .next t ∧ done stTimeout (tilesDone s q r) t) ∧
      (r.desc.host = false → canFreeze s = true → ∃ t, exec (.timeout q tag) s = .next t ∧ safeWith 0x16 t)))

/-- R216, R218 to R220: the operations of a migration list on a unit that passes its checks, by what they leave in the
map, in the accounts, in the slots and on the ports: FETCH, EVICT, WRITEBACK, DROP, ALLOC, MOVE, BIND, UNBIND. For a unit
that is not its entry's last, in a stack without flawed granules. A home frame whose CRC fails is asked for again, three
times at most (R259). The counts of the tier engine's own queues agree (R407).
R216, R217, R219, R220, R231: with the last unit of its last entry a list is complete, once the audit holds; a failed
audit is a tier-audit fault. A unit of a host list that fails a check stops the list with its cause; one of a manifest
list is a fatal fault, ownership under its own code. -/
def Obligations.MigrationLists : Prop :=
  (∀ (s : State) (host : Bool) (m : MigInst) (e : MigEntry) (es : List MigEntry) (ms : List MigInst),
     migQueue host s = m :: ms → m.entries = e :: es → turnOf host s = true → tierWorks host s = true →
     m.done + 1 < e.count → s.stackUpsets = [] → s.tier.writes = [] → State.canon s = true →
     (∀ p, tqCountsOk (queueAt s (p * 1024 + 1023)) = true) →
     let o : UnitOp := { e := e, i := m.done, m := mapAt s (e.unit + m.done) }
     let u := e.unit + m.done
     let goes (i : Instr) (x : MapEntry) (f : State → Prop) : Prop :=
       ∃ t, exec i s = .next t ∧ mapAt t u = x ∧ (∀ v, v ≠ u → mapAt t v = mapAt s v) ∧
         migQueue host t = { m with done := m.done + 1, tries := 0 } :: ms ∧ migQueue (!host) t = migQueue (!host) s ∧
         t.tier.served = some host ∧ t.clusters = s.clusters ∧ t.dev = s.dev ∧ f t
     let used (t : State) (tier a : Nat) : Nat := (acctAt t tier a).used
     o.bar host s = none →
     (e.op = 1 → ∀ p frame, homePort s o = some p → tileGood frame = true →
       goes (.fetch host (some frame))
         { o.m with res := true, dirty := false, stack := o.stack, slot := o.slot, acct := e.acct } (fun t =>
         t.stackMem = Mem.write 0 s.stackMem (slotKey o.stack o.slot) (slotOfFrame frame) ∧
         t.ports = (askHome p o s).ports ∧ used t 1 e.acct = used s 1 e.acct + 1 ∧
         t.tier.inUse = s.tier.inUse + 1)) ∧
     (e.op = 1 → ∀ p frame, homePort s o = some p → tileGood frame = false → m.tries < 3 →
       ∃ t, exec (.fetch host (some frame)) s = .next t ∧ migQueue host t = { m with tries := m.tries + 1 } :: ms ∧
         t.ports = (askHome p o s).ports ∧ t.tier.map = s.tier.map ∧ t.stackMem = s.stackMem ∧ t.dev = s.dev) ∧
     (e.op = 2 → ∀ p, o.m.dirty = true → homePort s o = some p →
       goes (.evict host true) { o.m with res := false } (fun t =>
         t.stackMem = s.stackMem ∧ t.ports = (sendHome p o (readUnit u s).1 s).ports ∧
         used t 1 o.m.acct = used s 1 o.m.acct - 1 ∧ t.tier.inUse = s.tier.inUse - 1)) ∧
     (e.op = 2 → o.m.dirty = false →
       ∀ acked, goes (.evict host acked) { o.m with res := false } (fun t =>
         t.stackMem = s.stackMem ∧ t.ports = s.ports ∧ used t 1 o.m.acct = used s 1 o.m.acct - 1)) ∧
     (e.op = 3 → ∀ p, o.m.dirty = true → homePort s o = some p →
       goes (.writeback host true) { o.m with dirty := false } (fun t =>
         t.stackMem = s.stackMem ∧ t.ports = (sendHome p o (readUnit u s).1 s).ports ∧
         t.tier.accts = s.tier.accts)) ∧
     (e.op = 4 →
       goes (.drop host) { o.m with res := false } (fun t =>
         t.stackMem = s.stackMem ∧ t.ports = s.ports ∧ used t 1 o.m.acct = used s 1 o.m.acct - 1 ∧
         t.tier.inUse = s.tier.inUse - 1)) ∧
     (e.op = 5 →
       goes (.alloc host) { o.m with res := true, dirty := false, stack := o.stack, slot := o.slot, acct := e.acct }
         (fun t => t.stackMem = Mem.write 0 s.stackMem (slotKey o.stack o.slot) (zeros slotSize) ∧ t.ports = s.ports ∧
           used t 1 e.acct = used s 1 e.acct + 1 ∧ t.tier.inUse = s.tier.inUse + 1)) ∧
     (e.op = 6 →
       goes (.move host) { o.m with stack := o.stack, slot := o.slot, acct := e.acct } (fun t =>
         t.stackMem = Mem.write 0 s.stackMem (slotKey o.stack o.slot)
           (Mem.read 0 s.stackMem (slotKey o.m.stack o.m.slot) slotSize) ∧ t.ports = s.ports ∧
         (e.acct ≠ o.m.acct → used t 1 e.acct = used s 1 e.acct + 1 ∧ used t 1 o.m.acct = used s 1 o.m.acct - 1))) ∧
     (e.op = 7 → o.m.htier = 0 →
       goes (.bind host) { o.m with htier := e.htier, hacct := e.acct, loc := e.loc + o.i } (fun t =>
         t.stackMem = s.stackMem ∧ t.ports = s.ports ∧ used t e.htier e.acct = used s e.htier e.acct + 1)) ∧
     (e.op = 8 → o.m.htier ≠ 0 →
       goes (.unbind host) { o.m with htier := 0, hacct := 0, loc := 0 } (fun t =>
         t.stackMem = s.stackMem ∧ t.ports = s.ports ∧
         used t o.m.htier o.m.hacct = used s o.m.htier o.m.hacct - 1))) ∧
  (∀ (s : State) (host : Bool) (m : MigInst) (e : MigEntry) (es : List MigEntry),
     migQueue host s = [m] → m.entries = e :: es → e.op = 4 → turnOf host s = true → tierWorks host s = true →
     s.tier.writes = [] →
     let o : UnitOp := { e := e, i := m.done, m := mapAt s (e.unit + m.done) }
     let recOf (t : State) : ListRec := Tab.get ListRec.reset t.tier.recs m.list
     (o.bar host s = none → es = [] → e.count ≤ m.done + 1 →
       (auditOk (vacate o.unit s) = true →
         ∃ t, exec (.drop host) s = .next t ∧ migQueue host t = [] ∧
           recOf t = { st := .complete, next := m.next + 1, cause := 0, unit := 0 }) ∧
       (auditOk (vacate o.unit s) = false → canFreeze s = true →
         ∃ t, exec (.drop host) s = .next t ∧ safeWith 0x0F t)) ∧
     (∀ err, o.bar host s = some err →
       (host = true →
         ∃ t, exec (.drop true) s = .next t ∧ migQueue true t = [] ∧
           recOf t = { st := .stopped, next := m.next, cause := causeCode err, unit := o.unit } ∧
           t.tier.map = s.tier.map ∧ t.stackMem = s.stackMem ∧ t.dev = s.dev) ∧
       (host = false → canFreeze s = true →
         ∃ t, exec (.drop false) s = .next t ∧ safeWith (if err = .ownership then 0x11 else 0x10) t)))

/-- R220 to R224: a started staging list reads its next tile into the injection buffer as payload rows and trailer rows;
a bad CRC, a wrong version and a unit that is not resident are fatal. A completed extraction tile is stored under a
new header, with the step of the run in which its write started (STORE), or its payload is added to the stored one as FP32 lanes, counting NaN and overflow (ADD_F32), or as
64-bit integers (ADD_I64), the other header fields and the trailer staying. -/
def Obligations.StagingAndExtraction : Prop :=
  ∀ (s : State) (stack list : Nat) (e : StageEnt) (i : Nat), stack < 16 → s.dev.st = .running → s.stackUpsets = [] →
    State.canon s = true →
    let u := e.unit + i
    let addr := slotKey (mapAt s u).stack (mapAt s u).slot
    (let k := stageKey stack false list
     let x := stageAt s k
     let tile := (readUnit u s).1
     x.st = .executing → tileOf x.entries x.done = some (e, i) → s.tier.writes = [] →
     injectionRows s stack + e.tileRows ≤ injectionSize →
     (unitBar false u s = none → tileGood tile = true →
       (bit (tTid tile) 31 = true → tVersion tile = s.runBlk.step) →
       ∃ t, exec (.stagingRead stack list) s = .next t ∧
         stageAt t k = { x with done := x.done + 1, rows := x.rows ++ stageRowsOf e i tile,
                                rowsRead := x.rowsRead + (stageRowsOf e i tile).length } ∧
         (∀ j, j ≠ k → stageAt t j = stageAt s j) ∧ { t with tier := s.tier } = s) ∧
     (unitBar false u s = none → tileGood tile = false →
       ∃ t, exec (.stagingRead stack list) s = .next t ∧ safeWith 0x12 t) ∧
     (unitBar false u s = none → tileGood tile = true → bit (tTid tile) 31 = true → tVersion tile ≠ s.runBlk.step →
       ∃ t, exec (.stagingRead stack list) s = .next t ∧ safeWith 0x1B t) ∧
     ((mapAt s u).res = false → ∃ t, exec (.stagingRead stack list) s = .next t ∧ safeWith 0x10 t)) ∧
    (let k := stageKey stack true list
     let x := stageAt s k
     let data := x.bytes.take (stageBytes e)
     let old := (readUnit u s).1
     x.st = .executing → x.extraction = true → tileOf x.entries x.done = some (e, i) → stageBytes e ≤ x.bytes.length →
     (s.tier.writes = [] ∨ ∃ step rest, s.tier.writes = { list := k, step := step } :: rest) →
     let step := writeStep s k
     unitBar false u s = none →
     let goes (c : Instr) (new : Bytes) (f : State → Prop) : Prop :=
       ∃ t, exec c s = .next t ∧ t.stackMem = Mem.write 0 s.stackMem addr (slotOfFrame new) ∧
         mapAt t u = { mapAt s u with dirty := true } ∧ (∀ v, v ≠ u → mapAt t v = mapAt s v) ∧
         stageAt t k = { x with bytes := x.bytes.drop (stageBytes e), done := x.done + 1,
                                st := if x.done + 1 = x.total then .complete else .executing } ∧
         (∀ j, j ≠ k → stageAt t j = stageAt s j) ∧ t.ports = s.ports ∧ f t
     (e.mode = 0 → storeCheck s (storedTile step e i data) = 0 →
       goes (.store stack list) (storedTile step e i data) (fun t => t.clusters = s.clusters)) ∧
     (e.mode = 1 →
       let sum := addPayload (tPayload old) data
       goes (.addF32 stack list) (withPayload old sum.1) (fun t =>
         ∀ c, clusterAt t c =
           if c = addCluster stack then
             { clusterAt s c with cnt := { (clusterAt s c).cnt with
                 meshNan := satAdd (clusterAt s c).cnt.meshNan sum.2.1, meshInf := satAdd (clusterAt s c).cnt.meshInf sum.2.2 } }
           else clusterAt s c)) ∧
     (e.mode = 2 →
       goes (.addI64 stack list) (withPayload old (addPayload64 (tPayload old) data)) (fun t => t.clusters = s.clusters)))

/-! ## Power, clocks, sensors (16) -/

/-- R349, R381 to R383, R389: when the module powers down, when both feeds are below 45.0 V, and at a fault of the bus or
the hub supply, all power is gone: nothing stays but flash and the inputs. One feed out of range leaves the load to
the other, with event 0x0502; a connected feed takes its own voltage and state; both feeds below 50.0 V, one at 45.0 V or
more, are a supply fault of the hub; one disconnected above 60.0 V counts as absent in both rules. Feeds within 1.0 V of
each other share the load within 10 %, else the higher carries more, and one out of range carries none. -/
def Obligations.PowerAndFeeds : Prop :=
  ∀ (s : State) (f : Feed) (mv mvA mvB : Nat),
    let lost (t : State) : Prop :=
      t.power.on = false ∧ t.dev = Dev.reset ∧ t.clusters = [] ∧ t.stackMem = [] ∧ t.ports = [] ∧ t.queues = [] ∧
      t.tier = Tier.reset ∧ t.ids = Identity.reset ∧ t.logs = Logs.reset ∧ t.image = none ∧ t.flash = s.flash ∧
      t.pending = s.pending
    let below (limit mv : Nat) : Prop := mv < limit ∨ 60000 < mv
    (∃ t, exec .powerDown s = .next t ∧ lost t ∧ t.power.pwrEn = false) ∧
    (s.power.on = true →
      (∃ t, exec .busOrHubSupplyFault s = .next t ∧ lost t) ∧
      (below 45000 mvA → below 45000 mvB → ∃ t, exec (.powerRemoval mvA mvB) s = .next t ∧ lost t) ∧
      (below 50000 mvA → below 50000 mvB → ¬below 45000 mvA ∨ ¬below 45000 mvB → canFreeze s = true →
        ∃ t, exec (.feedUndervoltage mvA mvB) s = .next t ∧ safeWith 0x21 t ∧ t.power.on = true)) ∧
    (let feeds (t : State) : Prop :=
       (feedOf f t).mv = mv ∧ (feedOf f t).st = feedStateAt mv ∧
       (feedOf (otherFeed f) t).mv = (feedOf (otherFeed f) s).mv ∧
       (feedOf (otherFeed f) t).st = (feedOf (otherFeed f) s).st ∧ t.dev = s.dev ∧ t.clusters = s.clusters ∧
       t.stackMem = s.stackMem ∧ t.power.on = s.power.on ∧
       (∀ g : Feed,
         let x := feedOf g t
         let y := feedOf (otherFeed g) t
         (x.st ≠ .inRange → x.watts = 0 ∧ x.ma = 0) ∧
         (x.st = .inRange → x.ma = x.watts * 1000000 / x.mv) ∧
         (x.st = .inRange → y.st = .inRange →
           (x.mv ≤ y.mv + 1000 → y.mv ≤ x.mv + 1000 → 100 * x.watts ≤ 55 * (x.watts + y.watts) + 100) ∧
           (y.mv + 1000 < x.mv → y.watts ≤ x.watts + 1)))
     (∃ t, exec (.feedConnect f mv) s = .next t ∧ feeds t ∧ t.logs = s.logs) ∧
     (s.power.on = true → (feedOf f s).st = .inRange → (feedOf (otherFeed f) s).st = .inRange →
       (feedStateAt mv ≠ .inRange →
         ∃ t, exec (.feedLoss f mv) s = .next t ∧ feeds t ∧ t.logs.eventCount = s.logs.eventCount + 1) ∧
       (60000 < mv →
         ∃ t, exec (.feedOvervoltage f mv) s = .next t ∧ feeds t ∧ (feedOf f t).st = .disconnected ∧
           t.logs.eventCount = s.logs.eventCount + 1)))

/-- R350, R351, R354, R430: with PWR_EN and a feed in range the engine starts: it reaches STATE 2 with its identity, its
grade and its merged map, or, at the first step that fails, STATE 1 with that step's cause, which the event log names with
the field or the stack concerned; with FLASH_PGM_N asserted the start is held. With FLASH_VCC applied, FLASH_PGM_N asserted
lets flash be programmed while PWR_EN is deasserted. PWR_EN stays asserted without a feed (R428). -/
def Obligations.ColdStartOutcome : Prop :=
  ∀ (s : State) (o : ColdOutcome) (prog : List (Nat × Bytes)) (vcc : Bool),
    (let pk := identityPk o.puf
     let fails : List (Option Nat) :=
       [hardwareFault o 1, hardwareFault o 2, hardwareFault o 4, chainFault o s, hardwareFault o 5, hardwareFault o 6,
        hardwareFault o 7, factoryFault (factoryKey s) (sha256 pk) (factoryRegion s), hardwareFault o 9]
     let starts (t : State) : Prop :=
       t.flash = s.flash ∧ t.pending = s.pending ∧ t.power.on = true ∧
       t.cxl.link = (hostMode o.channel).isSome ∧ t.cxl.mode = (hostMode o.channel).getD LinkMode.none ∧
       (match fails.findSome? id with
        | some c =>
          let e := Tab.get EventRec.zero t.logs.events ((t.logs.eventCount - 1) % eventRing)
          t.dev.st = .startFailed ∧ t.dev.startCause = BitVec.ofNat 16 c ∧ t.power.fault = true ∧ e.code = 0x0101 ∧
            (c = 0x0501 → e.place.toNat = atField ∧ e.loc.toNat = o.failField.val) ∧
            (c = 0x0901 → e.place.toNat = atStack ∧ e.loc.toNat = o.failStack.val)
        | none =>
          t.dev.st = .ready ∧ t.dev.startStep = 10 ∧ t.power.pgood = true ∧ t.power.fault = false ∧ t.ids.pk = pk ∧
          t.ids.idHash = sha256 pk ∧ t.dev.physId = BitVec.ofNat 64 (fieldB (sha256 pk) 0 8) ∧
          t.dev.grade = (factoryRegion s).getD 6 0 ∧ t.map.built = true ∧ t.image = none ∧ t.stackMem = [])
     s.power.on = false → feedReady s = true →
     (s.power.flashPgm = false → ∃ t, exec (.coldStart o) s = .next t ∧ starts t) ∧
     (s.power.flashPgm = true →
       exec (.coldStart o) s = .next { s with power := { s.power with pwrEn := true, held := true } }) ∧
     (s.power.held = true → s.power.pwrEn = true →
       ∃ t, exec (.flashPgmN { pgm := false, vcc := vcc } prog o) s = .next t ∧ starts t)) ∧
    (s.power.on = false → feedReady s = false → s.power.flashPgm = false →
      exec (.coldStart o) s = .next { s with power := { s.power with pwrEn := true } }) ∧
    (s.power.pwrEn = false →
      exec (.flashPgmN { pgm := true, vcc := true } prog o) s =
        .next { s with power := { s.power with flashPgm := true, flashVcc := true }, flash := program prog s.flash }) ∧
    (s.power.pwrEn = true ∨ vcc = false →
      exec (.flashPgmN { pgm := true, vcc := vcc } prog o) s =
        .next { s with power := { s.power with flashPgm := true, flashVcc := vcc } }) ∧
    (s.power.held = false →
      exec (.flashPgmN { pgm := false, vcc := vcc } prog o) s =
        .next { s with power := { s.power with flashPgm := false, flashVcc := vcc } })

/-- R386 to R391, R395: a junction at its request threshold sets REQ once and raises MSI-X vector 2; at its drop
threshold the drop is owed too; a trip, of a junction, of a field supply or of a stack, and a sensor that falls silent,
is a fatal fault, and the field's supply goes off with its clusters. A supply fault and a watchdog that is not serviced
are fatal faults as well, and a broken detector or checker raises the fault of the unit that it guards (log entry 100). A
sample with nothing to report changes the readings alone. -/
def Obligations.SensorsAndTrips : Prop :=
  ∀ (s : State) (f i n : Nat) (q : Int) (how : SupplyHow) (u : Guarded), f < 94 → i < 8 → n < 16 → s.power.on = true →
    State.canon s = true →
    let j : Sensor := .junction f i
    let at_ (k : Sensor) (q : Int) : Instr := .sensorSample [{ sensor := k, quarter := q }]
    let off (t : State) (x : SupplyState) : Prop :=
      (Tab.get FieldReg.reset t.heat.fields f).supply = x ∧ (∀ e ∈ t.clusters, fieldAt e.1 ≠ f)
    (-80 ≤ q → q < 340 →
      ∃ t, exec (at_ j q) s = .next t ∧ quarterAt t j = q ∧ t.heat.req = s.heat.req ∧ t.heat.hot = s.heat.hot ∧
        { t with heat := s.heat } = s) ∧
    (360 ≤ q → q < 432 → s.heat.armed = true →
      ∃ t, exec (at_ j q) s = .next t ∧ quarterAt t j = q ∧ t.heat.req = true ∧ t.heat.armed = false ∧
        (400 ≤ q → t.heat.hot = true) ∧ (q < 400 → t.heat.hot = s.heat.hot) ∧
        t.cxl.msix = setAt s.cxl.msix 2 (s.cxl.msix.getD 2 0 + 1) ∧
        t.logs.eventCount = s.logs.eventCount + 1 ∧ t.dev = s.dev ∧ t.clusters = s.clusters) ∧
    (canFreeze s = true →
      (432 ≤ q ∨ q < -80 → supplyIsOn s f = true →
        ∃ t, exec (at_ j q) s = .next t ∧ safeWith 0x20 t ∧ off t .thermalTrip) ∧
      (supplyIsOn s f = true → ∃ t, exec (.sensorSilent (.sensor j)) s = .next t ∧ safeWith 0x20 t ∧ off t .thermalTrip) ∧
      (u.wf = true → ∃ t, exec (.sensorSilent (.detector u)) s = .next t ∧ safeWith (guardFault u).cause t) ∧
      (440 ≤ q → supplyIsOn s f = true →
        ∃ t, exec (at_ (.supply f) q) s = .next t ∧ safeWith 0x21 t ∧ off t .supplyFault) ∧
      (420 ≤ q → ∃ t, exec (at_ (.stack n) q) s = .next t ∧ safeWith 0x20 t) ∧
      (supplyIsOn s f = true →
        ∃ t, exec (.supplyFault f how) s = .next t ∧ safeWith 0x21 t ∧ off t .supplyFault) ∧
      (∃ t, exec .watchdog s = .next t ∧ safeWith 0x22 t))

/-- R372, R377 to R379, R393, R426: a hall reference within tolerance is used and shown; an HTIME frame that
fails its check is counted, up to 65,535; a valid one steps the counter when it is the first, or more than 10 µs off
outside a run, with the next cycle (R380), and slews it otherwise, and LOCK comes with 32 good frames in a row after the
offset is set and goes with four bad ones or with silence; a thermal-history record is filed once a second; plugging a cable
in shows the module of its cage (R425) and nothing else, and pulling the cable of an up port takes the port through its
replays to RETRAINING with no fault. -/
def Obligations.ClocksRecordsAndCables : Prop :=
  ∀ (s : State) (x : BitVec 96) (codeOk present inTol : Bool) (p : Nat), p < 24 →
    (∃ t, exec (.hallReferenceChange present inTol) s = .next t ∧ t.power.hallRefOk = (present && inTol) ∧
      t.power.hallRefBad = (present && !inTol) ∧ t.hall.ref10 = (s.power.on && present && inTol) ∧ t.hall.ns = s.hall.ns ∧
      t.dev = s.dev ∧ t.clusters = s.clusters) ∧
    exec (.cableInsert p) s =
      .next { s with power := { s.power with emptyCages := s.power.emptyCages.erase p } } ∧
    (State.canon s = true → (portAt s p).st = .up → (portAt s p).role ≠ 0 → (portAt s p).retrained = none →
      ∃ t, exec (.cableRemoval p) s = .next t ∧ (portAt t p).st = .retraining ∧ (∀ r, r ≠ p → portAt t r = portAt s r) ∧
        cageState t p = .empty ∧ t.dev = s.dev ∧ t.safe = s.safe) ∧
    (s.power.on = true →
      exec .htimeTimeout s = .next { s with hall := { s.hall with lock := false, good := 0 } } ∧
      exec .thermalHistoryRecord s = .next { s with heat := { s.heat with
        history := Tab.set [] s.heat.history (s.heat.histCount % 3600) (historyRecord s),
        histCount := s.heat.histCount + 1 } } ∧
      (bits x.toNat 7 0 = 0xD5 → htimeIntact x.toNat codeOk = false →
        exec (.htimeFrame x codeOk) s =
          .next { s with hall := { s.hall with frameErr := min 65535 (s.hall.frameErr + 1) } }) ∧
      (bits x.toNat 7 0 = 0xD5 → htimeIntact x.toNat codeOk = true → bit x.toNat 72 = true →
        let h := s.hall
        let e : Int := ((bits x.toNat 71 8 : Int) + h.offset) * 2 ^ 32 - (h.ns + h.step)
        let near : Bool := decide (e ≤ 25 * 2 ^ 32 ∧ -(25 * 2 ^ 32) ≤ e)
        ∃ t, exec (.htimeFrame x codeOk) s = .next t ∧ { t with hall := s.hall } = s ∧
          t.hall.frames = h.frames + 1 ∧ t.hall.lastErr = e / 2 ^ 32 ∧ t.hall.ns = h.ns ∧
          ((h.frames = 0 ∨ (10000 * 2 ^ 32 < e.natAbs ∧ s.dev.st ≠ .running)) →
            t.hall.step = h.step + e ∧ t.hall.slew = 0 ∧ t.hall.rate = h.rate ∧
            (h.ns + (h.step + e)).toNat ≤ (tickHall 84 t).hall.ns ∧ (tickHall 84 t).hall.step = 0) ∧
          (h.frames ≠ 0 → e.natAbs ≤ 10000 * 2 ^ 32 ∨ s.dev.st = .running →
            t.hall.step = h.step ∧ t.hall.slewLeft = 84000 ∧ t.hall.rate = h.rate + e / 4096 / 1000) ∧
          (h.offsetSet = true → near = true → 31 ≤ h.good → t.hall.lock = true) ∧
          (near = false → 3 ≤ h.bad → t.hall.lock = false) ∧
          (near = true → t.hall.good = h.good + 1 ∧ (h.lock = true → t.hall.lock = true)) ∧
          (near = false → t.hall.good = 0 ∧ t.hall.bad = h.bad + 1)))

/-! ## The host link and the mailbox (15) -/

/-- R322, R324, R326, R346, R363: the events of the host link. A channel that sustains fewer than 4 lanes or less than
32 GT/s brings no link up; any other trains to the best mode, with 68-byte flits only at 32 GT/s against a partner that has
no other. Training, the two resets and a loss of the link put BAR0 and the decoder back at their reset values, lose the
output of a foreground command and leave the engine as it is; a decoder commits with one way and target type HDM-H only; FINISH opens the session, END_SESSION closes
it, IDE keys of either stream are taken inside one only, and a stream is secure once its keys are in use.
R10, R325, R328, R333, R334: writing 1 to GEAR_STATUS.REQ or DROP clears it, 0 leaves it; reading TIME_STATUS returns the
frame errors and clears them; a write of the whole register acts as its bits do, WEIR_CTRL takes HOLD and RELAY_DIS, BAR0 in
configuration space its address bits, an MSI-X entry its address, data and mask, and a write anywhere else has no effect
(the width of a write and the places in an MSI-X entry are the model's, log entries 80 and 91).
R325, R328 to R336: in every state an 8-byte read at a 64-bit register of the Damust block gives the register, two 4-byte reads
its halves, and a 32-bit register reads as itself; the MSI-X entries and the pending bits can be read; reserved space reads
zero. Configuration space holds the class code, the Device ID, BAR0 as it was assigned, 64 bits wide and not prefetchable, no other
BAR, and four DVSECs; Memory_Active is set once cold-start step 9 is complete. -/
def Obligations.HostLinkAndRegisters : Prop :=
  (∀ (s : State) (ch : Channel) (hdmH good : Bool) (ways : Nat) (x : Byte) (v : IdeStream),
     let atReset : Cxl := { s.cxl with bar0 := 0, committed := false, decErr := false }
     let forgets : Mailbox := { s.mbx with rc := 0, dstatus := .ok, check := 0, out := [] }
     (s.power.on = true →
       (ch.lanes < 4 ∨ ch.rate < 32 →
         exec (.perstNRelease ch) s = .next { s with mbx := forgets, cxl := { atReset with link := false, mode := LinkMode.none } }) ∧
       (4 ≤ ch.lanes → 32 ≤ ch.rate →
         exec (.perstNRelease ch) s =
           .next { s with mbx := forgets, cxl := { atReset with
             link := true,
             mode := { lanes := if ch.lanes < 8 then 4 else 8, rate := if ch.rate < 64 then 32 else 64,
                       flit := if ch.rate < 64 ∧ ch.flits256 = false then 68 else 256 } } })) ∧
     (mailboxUp s = true →
       exec .hotReset s = .next { s with cxl := atReset, mbx := forgets } ∧
       exec .functionLevelReset s = .next { s with cxl := atReset, mbx := forgets } ∧
       exec .hostLinkLoss s = .next { s with mbx := forgets, cxl := { atReset with link := false, mode := LinkMode.none } } ∧
       exec (.hdmCommit ways hdmH) s =
         .next { s with cxl := { s.cxl with committed := ways == 1 && hdmH, decErr := !(ways == 1 && hdmH) } } ∧
       (let answers (m : Spdm) (y : Cxl) : Prop :=
          exec (.spdmMessage m) s = .next { s with cxl := { y with spdmAnswers := s.cxl.spdmAnswers + 1 } }
        answers (.plain x) s.cxl ∧ answers (.finish good) { s.cxl with session := s.cxl.session || good } ∧
        answers .endSession { s.cxl with session := false } ∧
        (s.cxl.session = true →
          answers (.ideKey .selective) { s.cxl with ideKeyed := true } ∧
          answers (.ideKey .cachemem) { s.cxl with memKeyed := true } ∧
          answers (.ideStop .selective) { s.cxl with ide := false } ∧
          answers (.ideStop .cachemem) { s.cxl with memIde := false } ∧
          (s.cxl.ideKeyed = true → answers (.ideGo .selective) { s.cxl with ide := true }) ∧
          (s.cxl.ideKeyed = false → answers (.ideGo .selective) s.cxl) ∧
          (s.cxl.memKeyed = true → answers (.ideGo .cachemem) { s.cxl with memIde := true }) ∧
          (s.cxl.memKeyed = false → answers (.ideGo .cachemem) s.cxl)) ∧
        (s.cxl.session = false → answers (.ideKey v) s.cxl ∧ answers (.ideGo v) s.cxl ∧ answers (.ideStop v) s.cxl)))) ∧
  (∀ (s : State) (v : Bool) (off : Nat) (x : W64), mailboxUp s = true →
     exec (.gearReqClear v) s = .next { s with heat := { s.heat with req := s.heat.req && !v } } ∧
     exec (.gearDropClear v) s = .next { s with heat := { s.heat with drop := s.heat.drop && !v } } ∧
     exec .frameErrRead s =
       .next { s with
         cxl := { s.cxl with regOut := BitVec.ofNat 64 (b2n s.hall.lock * 2 ^ 31 + b2n s.hall.offsetSet * 2 ^ 30 +
           b2n s.hall.ref10 * 2 ^ 29 + s.hall.frameErr) },
         hall := { s.hall with frameErr := 0 } } ∧
     exec (.regWrite (.bar0 0x40180) x) s =
       .next { s with heat := { s.heat with req := s.heat.req && !x.getLsbD 7, drop := s.heat.drop && !x.getLsbD 6 } } ∧
     (∃ t, exec (.regWrite (.bar0 0x40304) x) s = .next t ∧ t.weir.hold = x.getLsbD 0 ∧ t.weir.relayDis = x.getLsbD 1 ∧
       { t with weir := s.weir } = s) ∧
     exec (.regWrite (.config 0x10) x) s = .next { s with cxl := { s.cxl with bar0 := x >>> 20 <<< 20 } } ∧
     (off ≠ 0x10 → exec (.regWrite (.config off) x) s = .next s) ∧
     (off ≠ 0x40180 → off ≠ 0x40304 → off < 0x50000 ∨ 0x50040 ≤ off → exec (.regWrite (.bar0 off) x) s = .next s) ∧
     (∀ i, i < 4 → s.cxl.msixTable.length = 4 → s.cxl.msixPending.length = 4 →
       let e := s.cxl.msixTable.getD i MsixEntry.reset
       let becomes (o : Nat) (e' : MsixEntry) : Prop :=
         ∃ t, exec (.regWrite (.bar0 (0x50000 + 16 * i + o)) x) s = .next t ∧ t.cxl.msixTable.getD i MsixEntry.reset = e' ∧
           t.cxl.msixPending.getD i false = (s.cxl.msixPending.getD i false && e'.masked) ∧
           (∀ j, j ≠ i → t.cxl.msixTable.getD j MsixEntry.reset = s.cxl.msixTable.getD j MsixEntry.reset ∧
             t.cxl.msixPending.getD j false = s.cxl.msixPending.getD j false) ∧
           { t with cxl := { t.cxl with msixTable := s.cxl.msixTable, msixPending := s.cxl.msixPending } } = s
       becomes 0 { e with addr := x } ∧
       becomes 4 { e with addr := (x.extractLsb' 0 32 ++ e.addr.extractLsb' 0 32 : BitVec 64) } ∧
       becomes 8 { e with data := x.extractLsb' 0 32, masked := x.getLsbD 32 } ∧
       becomes 12 { e with masked := x.getLsbD 0 })) ∧
  (∀ (s : State),
     (∀ x ∈ [(0x0000, s.dev.physId.toNat), (0x0008, devInfo s), (0x0018, mbxLoad s), (0x0100, nowNs s % 2 ^ 64),
             (0x0200, safeStatus s), (0x0208, s.safe.time.toNat), (0x0280, s.logs.eventCount), (0x0288, s.logs.digestCount),
             (0x0308, s.weir.holdTotal), (0x0408, s.tier.holdMig), (0x0410, s.tier.holdStg), (0x0418, tierPoison s),
             (0x0420, tierStkEcc s)],
        x.2 < 2 ^ 64 →
        bar0Read (0x40000 + x.1) 8 s = x.2 ∧ bar0Read (0x40000 + x.1) 4 s = x.2 % 2 ^ 32 ∧
        bar0Read (0x40000 + x.1 + 4) 4 s = x.2 / 2 ^ 32) ∧
     (∀ x ∈ [(0x0010, devStatus s), (0x0108, timeStatus s), (0x010C, timeOffset s), (0x0180, gearStatus s),
             (0x0300, weirStatus s), (0x0304, weirCtrl s), (0x0310, s.weir.relays), (0x0400, tierStatus s)],
        bar0Read (0x40000 + x.1) 4 s = x.2 % 2 ^ 32) ∧
     (∀ p, p < 24 →
        bar0Read (0x41000 + 16 * p) 4 s = portStatus (portAt s p) % 2 ^ 32 ∧
        bar0Read (0x41004 + 16 * p) 4 s = portFilter (portAt s p) % 2 ^ 32) ∧
     (∀ i, i < 4 → s.cxl.msixTable.length = 4 →
        let e := s.cxl.msixTable.getD i MsixEntry.reset
        bar0Read (0x50000 + 16 * i) 8 s = e.addr.toNat ∧ bar0Read (0x50008 + 16 * i) 4 s = e.data.toNat ∧
        bar0Read (0x5000C + 16 * i) 4 s = b2n e.masked) ∧
     bit (bar0Read 0x51000 4 s) 0 = s.cxl.msixPending.getD 0 false ∧
     bit (bar0Read 0x51000 4 s) 3 = s.cxl.msixPending.getD 3 false ∧
     (∀ off, off < 0x1000 ∨ (0x40428 ≤ off ∧ off < 0x41000) ∨ (0x41180 ≤ off ∧ off < 0x50000) ∨ 0x51008 ≤ off →
       bar0Read off 4 s = 0) ∧
     (let c := configSpace s
      let dvsec (vendor id : Nat) : DvsecId := { vendor := vendor, id := id }
      let damust := Config.vendorId.toNat
      c.classCode = 0x050210 ∧ c.vendor = damust ∧ c.device = 0xB207 ∧
        c.bar0 = { addr := s.cxl.bar0.toNat, size := 2 ^ 20, wide := true, prefetchable := false } ∧
        c.bars = [none, none, none, none] ∧ c.vectors = 4 ∧
        c.cxlDevice.header = dvsec 0x1E98 0x0000 ∧ c.flexBus.header = dvsec 0x1E98 0x0007 ∧
        c.locator.header = dvsec 0x1E98 0x0008 ∧
        c.locator.entries.map (fun x => (x.offset, x.block, x.vendorBlock)) =
          [(0, 1, none), (0x10000, 3, none), (0x40000, 0xFF, some (damust, 0x0001))] ∧
        c.cxlDevice.hdmCount = 1 ∧ c.cxlDevice.range1Size = 0x101000000000 ∧
        (c.cxlDevice.memoryActive = true ↔ 9 ≤ s.dev.startStep) ∧
        c.damust = { header := dvsec damust 0x0001, devId := s.dev.physId.toNat, devInfo := devInfo s }))

/-- R212, R213, R225 to R227: a host read of a resident unit's frame that the state and the unit's account allow returns the
slot's bytes, a host write stores them and makes the unit dirty; the rest of a unit's 32 KiB reads as zero; a read that
is not allowed returns data of the length asked for, which the spec does not state, with the poison indication, and a write
that is not allowed is dropped, each counted in TIER_POISON. The load window takes writes while it is open. For accesses
inside one piece of the range, in stacks without flawed granules, with no tile of an extraction list still to be applied. -/
def Obligations.HostMemoryAccess : Prop :=
  ∀ (s : State) (u o j : Nat) (data : Bytes), s.stackUpsets = [] → s.tier.writes = [] → data ≠ [] → State.canon s = true →
    let n := data.length
    let off := u * 32768 + o
    (u < 2 ^ 29 → o + n ≤ slotSize → decodes s off n = true →
      (reaches s u = true →
        exec (.hdmRead off n) s =
          .next { s with cxl := { s.cxl with hdmData := Mem.read 0 s.stackMem (frameKey s u o) n, hdmPoison := false } } ∧
        ∃ t, exec (.hdmWrite off data) s = .next t ∧ t.stackMem = Mem.write 0 s.stackMem (frameKey s u o) data ∧
          mapAt t u = { mapAt s u with dirty := true } ∧ (∀ v, v ≠ u → mapAt t v = mapAt s v) ∧
          t.clusters = s.clusters ∧ t.cxl = s.cxl ∧ t.tier.drops = s.tier.drops) ∧
      (reaches s u = false →
        exec (.hdmRead off n) s =
          .next { s with
            cxl := { s.cxl with hdmData := (List.range n).map (fun i => Config.free 8 (s.freeCount + i)), hdmPoison := true },
            tier := { s.tier with poison := satAdd s.tier.poison 1 }, freeCount := s.freeCount + n } ∧
        exec (.hdmWrite off data) s = .next { s with tier := { s.tier with drops := satAdd s.tier.drops 1 } })) ∧
    (u < 2 ^ 29 → slotSize ≤ o → o + n ≤ 32768 → decodes s off n = true → reaches s u = true →
      exec (.hdmRead off n) s = .next { s with cxl := { s.cxl with hdmData := zeros n, hdmPoison := false } } ∧
      exec (.hdmWrite off data) s = .next { s with tier := { s.tier with drops := satAdd s.tier.drops 1 } }) ∧
    (j < 2 ^ 35 → j % 4096 + n ≤ 4096 → decodes s (2 ^ 44 + j) n = true →
      (s.dev.st = .loadOpen → s.dev.loadOpen = true →
        exec (.hdmWrite (2 ^ 44 + j) data) s =
          .next { s with stackMem := Mem.write 0 s.stackMem (manifestKey j) data }) ∧
      (s.dev.st = .running →
        exec (.hdmWrite (2 ^ 44 + j) data) s = .next { s with tier := { s.tier with drops := satAdd s.tier.drops 1 } }))

/-- R337: the commands of the standard set are answered with their payloads and change nothing else; the event logs of CXL
are empty; the timestamp is kept as it is set and never used for hall time; Get Log returns bytes of the command effects
log, and no other; a memory device of 65,792 × 256 MiB, all volatile; every other opcode is Unsupported. (The payloads that CXL 3.1
defines and the layouts are the model's, log entries 14 and 35.) -/
def Obligations.StandardCommands : Prop :=
  ∀ (s : State) (x : W64) (off len : Nat) (op : BitVec 16), mailboxUp s = true →
    let answers (i : Instr) (rc : Nat) (out : Bytes) : Prop :=
      ∃ t, exec i s = .next t ∧ answered rc .ok out s t ∧ onlyMailbox s t ∧ t.mbx.bg = s.mbx.bg
    answers .identify 0 Config.identifyPayload ∧ answers .getEventRecords 0 (zeros 32) ∧
    answers .clearEventRecords 0 [] ∧ answers .getSupportedLogs 0 Config.supportedLogs ∧
    answers .getTimestamp 0 (toLe 8 (timestampNow s).toNat) ∧
    (off + len ≤ Config.effectsLog.length → answers (.getLog (.effects off) len) 0 (sliceB Config.effectsLog off len)) ∧
    (Config.effectsLog.length < off + len → answers (.getLog (.effects off) len) 2 []) ∧
    answers (.getLog (.other off) len) 2 [] ∧
    (∃ a b, a.length = 16 ∧ b.length = 29 ∧
      answers .identifyMemoryDevice 0 (a ++ toLe 8 65792 ++ toLe 8 65792 ++ toLe 8 0 ++ b)) ∧
    (op.toNat < 0xC11A ∨ 0xC1FF < op.toNat → answers (.unsupported op) 3 []) ∧
    (0xC11A ≤ op.toNat → op.toNat ≤ 0xC1FF → answers (.unsupported op) 3 (resultHeader .ok 0)) ∧
    (s.mbx.bg = none →
      answers .backgroundOperationStatus 0
        ([0, 0] ++ toLe 2 s.mbx.bgRes.opcode ++ toLe 2 (returnCode s.mbx.bgRes.dstatus) ++ toLe 2 0)) ∧
    (∃ t, exec (.setTimestamp x) s = .next t ∧ answered 0 .ok [] s t ∧ t.cxl.timestamp = x ∧ t.hall = s.hall ∧
      (x ≠ 0 → timestampNow t = x))

/-- R338 to R340: a vendor command that meets a background command is answered BUSY, except those that are answered
meanwhile (and, as the model reads R205 and R340, in STATES 9 and 10 those that they list there, unless a second background
command runs: log entry 87); one in a state that does not take it is answered BUSY in STATES 6, 8, 9 and 10 and STATE
otherwise; neither changes anything else. With the link down no command reaches the engine. -/
def Obligations.VendorCommandsJudged : Prop :=
  ∀ (s : State) (pl : Bytes) (x : Instr × Bool × List DevState),
    x ∈ [(.mapRead, true, startedStates), (.load pl, false, [.ready, .resident, .configured]),
         (.verify, false, [.loadOpen]), (.configure, false, [.resident, .configured]),
         (.relief pl, false, [.resident, .configured]), (.run pl, false, [.configured]),
         (.weirRelease pl, false, [.running]),
         (.freeze, true, [.loadOpen, .resident, .configured, .running, .warmStart]), (.contWarm, false, [.salvage]),
         (.readback pl, false,
           [.ready, .loadOpen, .resident, .configured, .safe, .lender, .scrubbing, .warmStart, .salvage]),
         (.attest pl, false, startedStates), (.setIdentity pl, false, [.ready, .resident, .configured, .safe]),
         (.lend pl, false, [.ready, .resident]), (.endLend, false, [.lender]),
         (.shadowGuard pl, false, [.ready, .resident, .configured]), (.setQuota pl, false, listStates),
         (.migPost pl, false, listStates), (.tqPost pl, false, workStates), (.sluiceOpen pl, false, workStates),
         (.sluiceClose pl, false, workStates), (.keyLoad pl, false, workStates),
         (.portReset pl, false, [.ready, .resident, .configured, .safe]),
         (Instr.timeOffsetSet pl, false, allStates)] →
    (mailboxUp s = false → exec x.1 s = .next s) ∧
    (mailboxUp s = true →
      let turned (d : DStatus) : Prop :=
        ∃ t, exec x.1 s = .next t ∧ replied d [] s t ∧ onlyMailbox s t ∧ t.mbx.bg = s.mbx.bg
      let stops : Prop := s.mbx.bg ≠ none ∧ (s.dev.st ∉ [.scrubbing, .warmStart] ∨ s.mbx.beside ≠ none)
      (stops → x.2.1 = false → turned .busy) ∧
      (¬stops → s.dev.st ∉ x.2.2 →
        turned (if s.dev.st ∈ [.running, .lender, .scrubbing, .warmStart] then .busy else .state)))

/-- R339: while a background command runs, BG_RESULT, LOG_READ, MAP_READ, MIG_STATUS, FREEZE and the standard commands are
accepted, and every other vendor command returns BUSY; in STATES 9 and 10, where END_LEND or WARM_START always runs, what R205
and R340 list there is accepted beside it as well, READBACK and ATTEST one at a time (log entry 87). A FREEZE stops a running
VERIFY, CONFIGURE or RELIEF, whose result becomes STATE, and the engine enters the safe state with the wafer as it is. -/
def Obligations.WhileABackgroundCommandRuns : Prop :=
  ∀ (s : State) (pl : Bytes) (x : W64) (b : BgCmd), mailboxUp s = true → s.mbx.bg = some b →
    let busy (i : Instr) : Prop :=
      ∃ t, exec i s = .next t ∧ replied .busy [] s t ∧ onlyMailbox s t ∧ t.mbx.bg = some b ∧ t.mbx.beside = s.mbx.beside
    (∀ i ∈ [Instr.load pl, .verify, .configure, .relief pl, .run pl, .weirRelease pl, .warmStart pl,
            .contWarm, .setIdentity pl, .lend pl, .endLend, .shadowGuard pl, .tqPost pl, .sluiceOpen pl,
            .sluiceClose pl, .keyLoad pl, .portReset pl], busy i) ∧
    (s.dev.st ∉ [.scrubbing, .warmStart] ∨ s.mbx.beside ≠ none →
      ∀ i ∈ [Instr.readback pl, .attest pl, .timeOffsetSet pl, .setQuota pl, .migPost pl], busy i) ∧
    (s.dev.st ∈ [.scrubbing, .warmStart] → s.mbx.beside = none →
      (1 ≤ fieldB pl 0 4 → fieldB pl 0 4 ≤ 256 → zeroB pl 4 4 = true →
        ∃ t, exec (.readback pl) s = .next t ∧ besideBegun (.readback (rangesOf pl)) s t ∧ t.dev = s.dev) ∧
      (∃ t, exec (.attest pl) s = .next t ∧ besideBegun (.attest (quoteBody (sliceB pl 0 32) s)) s t ∧ t.dev = s.dev) ∧
      (let v := sext 32 (fieldB pl 0 4)
       v ≤ 1000000 → -1000000 ≤ v →
       ∃ t, exec (.timeOffsetSet pl) s = .next t ∧ replied .ok [] s t ∧ t.mbx.bg = some b ∧
         t.hall = { s.hall with offset := v, offsetSet := true }) ∧
      (s.dev.st = .scrubbing → ∀ i ∈ [Instr.setQuota pl, .migPost pl], busy i) ∧
      (s.dev.st = .warmStart → ∀ i ∈ [Instr.setQuota pl, .migPost pl],
        ∃ t d, exec i s = .next t ∧ d ≠ .busy ∧ t.mbx.dstatus = d ∧ t.mbx.rc = returnCode d ∧ t.mbx.bg = some b)) ∧
    (let accepted (i : Instr) : Prop := ∃ t, exec i s = .next t ∧ t.mbx.rc = 0 ∧ t.mbx.bg = some b
     (∃ t, exec .bgResult s = .next t ∧ t.mbx.rc = returnCode s.mbx.bgRes.dstatus ∧ t.mbx.bg = some b) ∧
     (fieldB pl 0 1 ≤ 2 → zeroB pl 1 7 = true → accepted (.logRead pl)) ∧
     (s.dev.st ∈ startedStates → accepted .mapRead) ∧ accepted (.migStatus pl) ∧ accepted .identify ∧
     accepted .backgroundOperationStatus ∧ accepted .getEventRecords ∧ accepted .clearEventRecords ∧
     accepted .getTimestamp ∧ accepted (.setTimestamp x) ∧ accepted .getSupportedLogs ∧
     accepted (.getLog (.effects 0) 0) ∧ accepted .identifyMemoryDevice) ∧
    (b = .verify ∨ b = .configure ∨ (∃ p, b = .relief p) →
      s.dev.st = .loadOpen ∨ s.dev.st = .resident ∨ s.dev.st = .configured →
      ∃ t, exec .freeze s = .next t ∧ safeWith 0x01 t ∧ t.mbx.bg = s.mbx.beside ∧ t.mbx.bgRes.dstatus = .state ∧
        t.clusters = s.clusters)

/-- R341: RELIEF takes one patch in chunks, in ascending OFFSET without gaps: a chunk with OFFSET 0 starts a new patch and
discards any partial one; the chunk for which OFFSET plus its data length equals TOTAL starts R196 in the background; a
chunk that leaves a gap, or whose data passes TOTAL, returns RANGE and discards the partial patch. -/
def Obligations.ReliefChunks : Prop :=
  ∀ (s : State) (pl : Bytes), takesCommand [.resident, .configured] s →
    let off := fieldB pl 0 4
    let total := fieldB pl 4 4
    let data := pl.drop 8
    let takes (b : Bytes) : Prop :=
      (off + data.length = total →
        ∃ t, exec (.relief pl) s = .next t ∧ bgBegun (.relief b) s t ∧ t.mbx.partPatch = none) ∧
      (off + data.length < total →
        ∃ t, exec (.relief pl) s = .next t ∧ replied .ok [] s t ∧ t.mbx.partPatch = some (total, b) ∧ onlyMailbox s t)
    let rejects : Prop :=
      ∃ t, exec (.relief pl) s = .next t ∧ replied .range [] s t ∧ t.mbx.partPatch = none ∧ onlyMailbox s t
    (off = 0 → takes data) ∧
    (∀ b, off ≠ 0 → s.mbx.partPatch = some (total, b) → b.length = off → takes (b ++ data)) ∧
    (off ≠ 0 → s.mbx.partPatch = none → rejects) ∧
    (∀ b, off ≠ 0 → s.mbx.partPatch = some (total, b) → b.length ≠ off → rejects) ∧
    (total < off + data.length → rejects)

/-- R31, R195 to R201, R340, R341: MAP_READ answers with the merged map. LOAD keeps a resident manifest of the same key and
digest, and otherwise opens the window; VERIFY closes it and ends in STATE 4 with the manifest resident, or in STATE 2
with the failed check; CONFIGURE ends configured, or with the failed check and the wafer as it was; RELIEF takes the
chunks of a patch, and a patch that fails a check changes nothing.
R93, R106, R109, R187, R188, R200, R250, R252, R260: what a CONFIGURE that passes its checks loads: every good cluster holds
zeros, and a cluster with a selected group what the group's WRITE and FILL records put in its memories, each byte in its
place and zeros elsewhere, with its scalar registers from its initial block, its counters and ECC registers at zero and the
expected sentinel digest; nothing is written to another; ports take their roles, and an IDLE one is off; the sluices and
transfer queues are the records' (host sluices and host queues stay, and what still runs in a queue goes on: log entry 44). -/
def Obligations.ManifestCommands : Prop :=
  (∀ (s : State) (pl : Bytes),
    (mailboxUp s = true → s.dev.st ∈ startedStates →
      ∃ t, exec .mapRead s = .next t ∧ replied .ok (mergedRecord s) s t ∧ onlyMailbox s t) ∧
    (takesCommand [.ready, .resident, .configured] s →
      let d := declOf pl
      (d.size < 4096 ∨ maxManifest < d.size ∨ d.size % 8 ≠ 0 →
        ∃ t, exec (.load pl) s = .next t ∧ replied .range [] s t ∧ onlyMailbox s t) ∧
      (4096 ≤ d.size → d.size ≤ maxManifest → d.size % 8 = 0 →
        (keepsResident s d = true →
          ∃ t, exec (.load pl) s = .next t ∧ replied .ok (toLe 8 1) s t ∧ onlyMailbox s t) ∧
        (keepsResident s d = false →
          ∃ t, exec (.load pl) s = .next t ∧ replied .ok (toLe 8 0) s t ∧ t.dev.st = .loadOpen ∧ t.dev.loadOpen = true ∧
            t.dev.loadSize = d.size ∧ t.resident = none ∧ t.decl = some d ∧ t.clusters = s.clusters))) ∧
    (takesCommand [.loadOpen] s →
      ∃ t, exec .verify s = .next t ∧ bgBegun .verify s t ∧ t.dev = { s.dev with loadOpen := false } ∧ t.decl = s.decl) ∧
    (∀ d, s.mbx.bg = some .verify → s.decl = some d →
      let m := manifestBytes s d.size
      (verifyVerdict d m = none →
        ∃ t, exec .verifyDone s = .next t ∧ ended (bgDone 0xC102 .ok) s t ∧ t.dev.st = .resident ∧
          t.resident = some (residentOf d m) ∧ t.logs.eventCount = s.logs.eventCount + 1) ∧
      (∀ f, verifyVerdict d m = some f →
        ∃ t, exec .verifyDone s = .next t ∧ t.mbx.bgRes.dstatus = .check ∧ t.mbx.bgRes.check = f.code ∧
          t.mbx.bg = s.mbx.beside ∧ t.dev.st = .ready ∧ t.resident = s.resident ∧ t.logs.eventCount = s.logs.eventCount + 1)) ∧
    (takesCommand [.resident, .configured] s →
      (∃ t, exec .configure s = .next t ∧ bgBegun .configure s t ∧ t.clusters = s.clusters ∧ t.dev = s.dev) ∧
      (∀ total b, takeChunk s.mbx.partPatch pl = some (total, b) →
        (b.length = total → ∃ t, exec (.relief pl) s = .next t ∧ bgBegun (.relief b) s t ∧ t.mbx.partPatch = none) ∧
        (b.length ≠ total →
          ∃ t, exec (.relief pl) s = .next t ∧ replied .ok [] s t ∧ t.mbx.partPatch = some (total, b) ∧
            onlyMailbox s t)) ∧
      (takeChunk s.mbx.partPatch pl = none →
        ∃ t, exec (.relief pl) s = .next t ∧ replied .range [] s t ∧ t.mbx.partPatch = none ∧ onlyMailbox s t)) ∧
    (∀ r, s.mbx.bg = some .configure → s.resident = some r →
      let m := residentBytes s r
      let u := idlePorts m s
      let fs := fieldSects m
      let parts := placedClusters s r.patches fs
      let rings (type : Nat) (key : SectEnt → Bytes → Nat) : List (Nat × Bytes) :=
        (sectionsOf 2 m).flatMap (fun e => (bodies type m e).map (fun b => (key e b, b)))
      let sluices := rings 0x201 (fun e b => sluiceKey e.index (fieldB b 0 2))
      let lists := rings 0x202 (fun _ b => fieldB b 0 2)
      (checkVerdict s r m = none → isSafe u = false → State.canon u = true →
        ∃ t, exec .configureDone s = .next t ∧ ended (bgDone 0xC103 .ok) s t ∧ t.dev.st = .configured ∧
          t.image = some (imageOf m s r.patches) ∧ t.gates = manifestGates m ∧ t.logs.weirCount = 0 ∧
          (∀ c, c ∉ parts → clusterAt t c = if isGood s c then Cluster.reset else clusterAt s c) ∧
          (parts.Nodup → ∀ f ∈ fs, ∀ gs p, selectField s r.patches f = some (gs, p) → ∀ g ∈ gs,
            clusterAt t (clusterIn f.field g.1.u g.1.v) = configCluster (sentDigestOf m) g.2) ∧
          (∀ p, p < 24 →
            let q := portAt u p
            let v := portAt t p
            (∀ b, roleOf m p = some b → fieldB b 1 1 ≠ 0 →
              v.role = fieldB b 1 1 ∧ v.bundle = fieldB b 2 1 ∧ v.member = fieldB b 3 1 ∧
                v.sealedReq = bit (fieldB b 4 1) 0 ∧ v.digestTx = bit (fieldB b 4 1) 1 ∧
                v.st = if q.st = .off then .training else q.st) ∧
            (roleOf m p = none ∨ (∃ b, roleOf m p = some b ∧ fieldB b 1 1 = 0) →
              v.role = 0 ∧ v.bundle = 0 ∧ v.member = 0 ∧ v.txq = [] ∧ v.ctlq = [] ∧
                v.st = if q.st = .down then .down else .off)) ∧
          ((sluices.map Prod.fst).Nodup → ∀ x ∈ sluices, sluiceAt t x.1 = sluiceOf x.2) ∧
          (∀ k, k ∉ sluices.map Prod.fst →
            sluiceAt t k = if (sluiceAt u k).host then sluiceAt u k else Sluice.reset) ∧
          ((lists.map Prod.fst).Nodup → ∀ x ∈ lists,
            let q := queueAt t x.1
            q.manifest = true ∧ q.cring = fieldB x.2 8 4 ∧ q.descs = (listDescs x.2).map (descOf false) ∧ q.next = 0 ∧
              q.completions = 0 ∧ q.running = (queueAt u x.1).running) ∧
          (∀ k, k ∉ lists.map Prod.fst →
            let q := queueAt t k
            q.manifest = false ∧ q.completions = 0 ∧ q.running = (queueAt u k).running ∧
              q.descs = if (queueAt u k).manifest then [] else (queueAt u k).descs) ∧
          t.weir = { WeirCtl.reset with hold := u.weir.hold, relayDis := u.weir.relayDis } ∧
          t.tier = configTier m u.tier) ∧
      (∀ f, checkVerdict s r m = some f →
        ∃ t, exec .configureDone s = .next t ∧ t.mbx.bgRes.dstatus = .check ∧ t.mbx.bgRes.check = f.code ∧
          t.mbx.bg = s.mbx.beside ∧ t.dev = s.dev ∧ t.clusters = s.clusters ∧ t.image = s.image ∧ t.ports = s.ports)) ∧
    (∀ r p, s.mbx.bg = some (.relief p) → s.resident = some r →
      let m := residentBytes s r
      (reliefCheck s r m p = none → s.dev.st = .resident →
        ∃ t, exec .reliefDone s = .next t ∧ ended (bgDone 0xC104 .ok) s t ∧
          t.resident = some { r with patches := storePatch r.patches p } ∧ t.clusters = s.clusters) ∧
      (∀ f, reliefCheck s r m p = some f →
        ∃ t, exec .reliefDone s = .next t ∧ t.mbx.bgRes.dstatus = .check ∧ t.mbx.bgRes.check = f.code ∧
          t.mbx.bg = s.mbx.beside ∧ t.resident = s.resident ∧ t.clusters = s.clusters ∧ t.map = s.map))) ∧
  (∀ (g : Group) (sent : Option W128),
     let stores := g.recs.filter isStore
     let cl := configCluster sent g.image
     let base := dirWord g.image 0x1C
     let covers (r : Rec) (space a : Nat) : Prop :=
       (recSpace (recAddr r)).map Prod.fst = some space ∧ recOffset (recAddr r) ≤ a ∧
         a < recOffset (recAddr r) + recLength r
     let byte (space a : Nat) : Byte :=
       if space = 0 then Tab.get 0 g.image.mem a
       else if space = 1 then Tab.get 0 g.image.smem a
       else BitVec.ofNat 8
         ((Tab.get 0 (if space = 2 then g.image.rt0 else g.image.rt1) (a / 8)).toNat / 2 ^ (8 * (a % 8)))
     stores.all storeOk = true → apart (stores.map recRange) = true →
     (∀ r ∈ stores, ∀ space a, covers r space a →
       let i := a - recOffset (recAddr r)
       byte space a = if r.type = 0x102 then r.body.getD (8 + i) 0 else r.body.getD (16 + i % 8) 0) ∧
     (∀ space a, space < 4 → (∀ r ∈ stores, ¬covers r space a) → byte space a = 0) ∧
     cl.smem = g.image.smem ∧ cl.rt0 = g.image.rt0 ∧ cl.rt1 = g.image.rt1 ∧ cl.cnt = Counters.reset ∧ cl.a = [] ∧
     cl.vecs = [] ∧ cl.sb = [] ∧ cl.upsets = [] ∧ cl.ctlUpsets = [] ∧
     (∀ r, r < 32 →
       Tab.get 0 cl.s0.g r = (if base = 0 then 0 else BitVec.ofNat 64 (leNat (Mem.read 0 g.image.smem (base + 8 * r) 8))) ∧
       Tab.get 0 cl.s1.g r =
         (if base = 0 then 0 else BitVec.ofNat 64 (leNat (Mem.read 0 g.image.smem (base + 256 + 8 * r) 8)))) ∧
     (let d := sentScratch g.image + 0x1FF0
      (∀ h, sent = some h → sentScratch g.image ≠ 0 → Mem.read 0 cl.mem d 16 = toLe 16 h.toNat) ∧
      (∀ a, sent = none ∨ sentScratch g.image = 0 ∨ a < d ∨ d + 16 ≤ a → Tab.get 0 cl.mem a = Tab.get 0 g.image.mem a)))

/-- R109, R110, R159 to R161, R340, R342: RUN with a logical identity and a sound payload starts the run: STATE 6, the run
block in every participant, S0 of each at the start weir, scoreboards idle, the weir controller awaiting the start weir;
without an identity it is refused. WEIR_RELEASE records its weir for the run, once. FREEZE takes the engine to the safe
state. -/
def Obligations.RunCommands : Prop :=
  ∀ (s : State) (pl : Bytes),
    (takesCommand [.configured] s →
      (s.dev.ident = false → ∃ t, exec (.run pl) s = .next t ∧ replied .noIdentity [] s t ∧ onlyMailbox s t) ∧
      (s.dev.ident = true → 2 ^ 48 ≤ fieldB pl 0 8 ∨ 3 < fieldB pl 48 1 ∨ zeroB pl 49 7 = false →
        ∃ t, exec (.run pl) s = .next t ∧ replied .range [] s t ∧ onlyMailbox s t) ∧
      (∀ i, runStatus s pl = .ok → s.image = some i → i.parts.Nodup → (∀ c ∈ i.parts, (clusterAt s c).ctlUpsets = []) →
        ∃ t, exec (.run pl) s = .next t ∧ replied .ok [] s t ∧ t.dev.st = .running ∧
          t.runBlk = { step := fieldB pl 0 8, seeds := (List.range 4).map (fun k => BitVec.ofNat 64 (fieldB pl (8 + 8 * k) 8)),
                       dataPos := BitVec.ofNat 64 (fieldB pl 40 8), gear := fieldB pl 48 1, startTime := fieldB pl 56 8 } ∧
          t.weir.await = 0 ∧ t.weir.decided = !s.weir.hold ∧ t.weir.arrived = [] ∧ t.weir.latched = [] ∧
          t.weir.phase = (if i.parts = [] then .held else .beforeDue) ∧
          (∀ c ∈ i.parts,
            let a := clusterAt s c
            let b := clusterAt t c
            b.s0.st = .atWeir ∧ b.s1.st = .stopped ∧ b.sb = [] ∧ b.late = [] ∧ b.arriveSent = true ∧
            b.smem = a.smem ∧ b.mem = Mem.write 0 a.mem i.runBlock (runBlockBytes { s with runBlk := t.runBlk } i.mode)) ∧
          (∀ c, c ∉ i.parts → clusterAt t c = clusterAt s c) ∧ t.seals = [] ∧ t.commits = [] ∧
          t.tier.drops = 0 ∧ t.tier.poison = 0 ∧ t.stackMem = s.stackMem ∧
          t.logs.eventCount = s.logs.eventCount + 1)) ∧
    (takesCommand [.running] s →
      (releaseStatus s pl = .ok →
        ∃ t, exec (.weirRelease pl) s = .next t ∧ replied .ok [] s t ∧
          t.weir = { s.weir with hostRecs := s.weir.hostRecs ++ [fieldB pl 0 2] } ∧ t.clusters = s.clusters) ∧
      (zeroB pl 2 6 = true → fieldB pl 0 2 ∈ s.weir.hostRecs →
        ∃ t, exec (.weirRelease pl) s = .next t ∧ replied .duplicate [] s t ∧ onlyMailbox s t)) ∧
    (mailboxUp s = true → s.dev.st ∈ [.loadOpen, .resident, .configured, .running, .warmStart] →
      ∃ t, exec .freeze s = .next t ∧ safeWith 0x01 t)

/-- R359 to R361, R392: a warm start of an idle engine, and CONTINUE out of salvage, reset the lattice: SAFE_STATUS and
FAULT_N are released, the clusters keep their memories and counters and nothing else; SALVAGE stops first in STATE 11
with nothing cleared; a command or an engine at work is answered BUSY, a tripped field still hot STATE. The end is
STATE 4 with a resident manifest, else STATE 2. For an engine with closed sluices and no transfer queue. -/
def Obligations.WarmStartAndSalvage : Prop :=
  ∀ (s : State) (pl : Bytes) (o : WarmOutcome), State.canon s = true →
    (∀ e ∈ s.sluices, e.2.st = .closed) → s.queues = [] →
    let fl := fieldB pl 0 1
    let restarts (i : Instr) : Prop :=
      ∃ t, exec i s = .next t ∧ t.dev.st = .warmStart ∧ t.mbx.bg = some .warmStart ∧ t.mbx.rc = 1 ∧ t.safe = SafeReg.reset ∧
        t.power.fault = false ∧ t.image = none ∧ t.wires = [] ∧ t.weir = WeirCtl.reset ∧ t.tier.lend = none ∧
        t.stackMem = (applyWrites s).stackMem ∧ t.flash = s.flash ∧ t.map = s.map ∧ t.runBlk = RunBlock.reset ∧
        t.tier.manQ = [] ∧ t.tier.hostQ = [] ∧
        (∀ c, clusterAt t c =
          let a := clusterAt (applyWrites s) c
          { Cluster.reset with mem := a.mem, smem := a.smem, rt0 := a.rt0, rt1 := a.rt1, cnt := a.cnt, upsets := a.upsets,
                               ctlUpsets := a.ctlUpsets })
    (takesCommand [.ready, .resident, .configured, .safe] s →
      (4 ≤ fl → ∃ t, exec (.warmStart pl) s = .next t ∧ replied .range [] s t ∧ onlyMailbox s t) ∧
      (fl < 2 → s.dev.st ≠ .safe → listsExecute s = true →
        ∃ t, exec (.warmStart pl) s = .next t ∧ replied .busy [] s t ∧ onlyMailbox s t) ∧
      (s.dev.st = .safe ∨ listsExecute s = false →
        (fl < 2 → (trippedFields s).any (fieldHot s) = true →
          ∃ t, exec (.warmStart pl) s = .next t ∧ replied .state [] s t ∧ onlyMailbox s t) ∧
        ((trippedFields s).any (fieldHot s) = false →
          (fl = 0 → restarts (.warmStart pl)) ∧
          (fl = 1 →
            ∃ t, exec (.warmStart pl) s = .next t ∧ t.dev = { s.dev with st := .salvage } ∧ t.mbx.bg = none ∧
              t.mbx.bgRes = bgDone 0xC108 .ok ∧ t.logs.eventCount = s.logs.eventCount + 1 ∧
              { t with dev := s.dev, mbx := s.mbx, cxl := s.cxl, logs := s.logs } = s)))) ∧
    (takesCommand [.salvage] s →
      (s.tier.hostQ = [] → (trippedFields s).any (fieldHot s) = false →
        restarts .contWarm ∧ (fl = 2 → restarts (.warmStart pl))) ∧
      (s.tier.hostQ ≠ [] → ∃ t, exec .contWarm s = .next t ∧ replied .busy [] s t ∧ onlyMailbox s t)) ∧
    (s.dev.st = .warmStart → s.mbx.bg = some .warmStart →
      ∃ t, exec (.warmStartDone o) s = .next t ∧ t.dev.st = (if s.resident.isSome then .resident else .ready) ∧
        ended (bgDone 0xC108 .ok) s t ∧ t.resident = s.resident ∧ t.stackMem = s.stackMem)

/-- R166, R178, R205, R207, R231, R338, R340, R364, R365, R367: READBACK copies its ranges to the salvage area and reports
the bytes written; ATTEST samples the quote when it is taken and signs it with the identity key; MIG_STATUS, LOG_READ
and BG_RESULT answer at any time with a list's record, the records of a log from FIRST or the oldest kept on, and the
result of the last background command, whose status the return code follows. The feeds read as they are at the end of a
READBACK. -/
def Obligations.InspectionCommands : Prop :=
  ∀ (s : State) (pl : Bytes),
    (takesCommand [.ready, .loadOpen, .resident, .configured, .safe, .lender, .scrubbing, .warmStart, .salvage] s →
      let n := fieldB pl 0 4
      (n = 0 ∨ 256 < n → ∃ t, exec (.readback pl) s = .next t ∧ replied .range [] s t ∧ onlyMailbox s t) ∧
      (1 ≤ n → n ≤ 256 → zeroB pl 4 4 = true →
        ∃ t, exec (.readback pl) s = .next t ∧
          bgBegun (.readback ((List.range n).map (fun i => (fieldB pl (8 + 16 * i) 8, fieldB pl (16 + 16 * i) 8)))) s t)) ∧
    (let readEnds (r : BgResult) (t : State) : Prop :=
       t.mbx.bg = (if s.mbx.beside.isSome then s.mbx.bg else none) ∧ t.mbx.beside = none ∧ t.mbx.bgRes = r ∧
         t.cxl.msix = setAt s.cxl.msix 0 (s.cxl.msix.getD 0 0 + 1)
     (∀ a len, s.mbx.reading = some (.readback [(a, len)]) → s.tier.writes = [] →
       let u := settleLoad s
       let b := rangeRecord u u.freeCount salvageSize (a, len)
       ∃ t, exec .readbackDone s = .next t ∧ readEnds { bgDone 0xC109 .ok with value := b.length } t ∧
         t.stackMem = (writeSalvage (b.length / 4096 + 2) 0 b u).stackMem ∧ t.clusters = s.clusters ∧ t.dev = s.dev) ∧
     (∀ q, s.mbx.reading = some (.attest q) →
       ∃ t, exec .attestDone s = .next t ∧
         readEnds { bgDone 0xC10A .ok with quote := q ++ Config.slhSign (s.ids.secret.take 48) (sha256 q) } t ∧
         t.logs.eventCount = s.logs.eventCount + 1 ∧ t.ids = s.ids)) ∧
    (takesCommand startedStates s →
      ∃ t, exec (.attest pl) s = .next t ∧ bgBegun (.attest (quoteBody (sliceB pl 0 32) s)) s t ∧ t.dev = s.dev) ∧
    (mailboxUp s = true →
      (let r := listRec s (fieldB pl 0 2)
       ∃ t, exec (.migStatus pl) s = .next t ∧ onlyMailbox s t ∧
         replied .ok (toLe 4 (listStCode r.st) ++ toLe 4 r.next ++ toLe 4 r.cause ++ toLe 4 r.unit) s t) ∧
      (fieldB pl 0 1 ≤ 2 → zeroB pl 1 7 = true →
        let log := fieldB pl 0 1
        let ring := if log = 0 then 16384 else if log = 1 then 4096 else 8192
        let first := max (fieldB pl 8 8) (logCount s log - ring)
        let n := min (fieldB pl 16 4) (min (logCount s log - first) 2047)
        ∃ t, exec (.logRead pl) s = .next t ∧ onlyMailbox s t ∧
          replied .ok (toLe 8 (logCount s log) ++ toLe 4 n ++ toLe 4 32 ++
            (List.range n).flatMap (fun i => logRecord s log (first + i))) s t) ∧
      (∃ t, exec .bgResult s = .next t ∧ onlyMailbox s t ∧ t.mbx.rc = returnCode s.mbx.bgRes.dstatus ∧ t.mbx.dstatus = s.mbx.bgRes.dstatus ∧
        t.mbx.check = s.mbx.bgRes.check ∧
        t.mbx.out = resultHeader s.mbx.bgRes.dstatus s.mbx.bgRes.check ++ toLe 2 s.mbx.bgRes.opcode ++
          toLe 2 s.mbx.bgRes.sect ++ zeros 4 ++ toLe 8 s.mbx.bgRes.offset ++ toLe 2 s.mbx.bgRes.x ++
          toLe 2 s.mbx.bgRes.y ++ zeros 4 ++ toLe 8 s.mbx.bgRes.value ++ s.mbx.bgRes.quote))

/-- R228, R229, R247, R248, R287, R340, R356: SET_IDENTITY loads the logical identity and gives every port its tag and
epoch; LEND clears the map, the slot bitmap and every USED count and trains its ports, a DOWN port apart, as one TIER
bundle under the session's tag and epoch; neither is taken while a list executes; END_LEND stops the serving, and at the end of the
scrub every lent slot holds zeros, no other slot has changed, and the engine leaves lender mode. For an engine with closed
sluices, no transfer queue and no extraction tile still to be applied. -/
def Obligations.IdentityAndLending : Prop :=
  ∀ (s : State) (pl : Bytes), State.canon s = true → (∀ e ∈ s.sluices, e.2.st = .closed) → s.queues = [] →
    s.tier.writes = [] →
    (takesCommand [.ready, .resident, .configured, .safe] s → listsExecute s = false →
      let rank := fieldB pl 4 2
      let n := fieldB pl 8 2
      (n = 0 ∨ 1023 < n ∨ n ≤ rank →
        ∃ t, exec (.setIdentity pl) s = .next t ∧ replied .range [] s t ∧ onlyMailbox s t) ∧
      (1 ≤ n → n ≤ 1023 → rank < n → zeroB pl 3 1 = true → zeroB pl 10 6 = true →
        ∃ t, exec (.setIdentity pl) s = .next t ∧ replied .ok [] s t ∧ t.dev = { s.dev with ident := true } ∧
          t.ids = { s.ids with tag := BitVec.ofNat 16 (fieldB pl 0 2), epoch := BitVec.ofNat 8 (fieldB pl 2 1),
                               rank := rank, stage := fieldB pl 6 2, n := n } ∧
          (∀ p, p < 24 → (portAt t p).tag = t.ids.tag ∧ (portAt t p).epoch = t.ids.epoch ∧
            (portAt t p).st = (portAt s p).st ∧ (portAt t p).role = (portAt s p).role) ∧
          t.logs.eventCount = s.logs.eventCount + 1 ∧ t.clusters = s.clusters)) ∧
    (takesCommand [.ready, .resident, .configured, .safe] s → listsExecute s = true →
      ∃ t, exec (.setIdentity pl) s = .next t ∧ replied .state [] s t ∧ onlyMailbox s t) ∧
    (takesCommand [.ready, .resident] s → listsExecute s = true →
      ∃ t, exec (.lend pl) s = .next t ∧ replied .state [] s t ∧ onlyMailbox s t) ∧
    (takesCommand [.ready, .resident] s → listsExecute s = false → zeroB pl 3 1 = true → zeroB pl 7 1 = true →
      let l : Lend :=
        { ports := fieldB pl 0 3, tag := BitVec.ofNat 16 (fieldB pl 4 2), epoch := BitVec.ofNat 8 (fieldB pl 6 1),
          first := fieldB pl 8 8, count := fieldB pl 16 8 }
      (67600496 < l.first + l.count →
        ∃ t, exec (.lend pl) s = .next t ∧ replied .range [] s t ∧ onlyMailbox s t) ∧
      (l.first + l.count ≤ 67600496 →
        ∃ t, exec (.lend pl) s = .next t ∧ replied .ok [] s t ∧ t.dev = { s.dev with st := .lender } ∧
          t.tier.lend = some l ∧ t.tier.map = [] ∧ t.tier.inUse = 0 ∧
          (∀ tier a, (acctAt t tier a).used = 0 ∧ (acctAt t tier a).limit = (acctAt s tier a).limit) ∧
          (∀ p, p < 24 → bit l.ports p = true →
            (portAt t p).st = (if (portAt s p).st = .down then .down else .training) ∧ (portAt t p).role = rTier ∧
            (portAt t p).tag = l.tag ∧ (portAt t p).epoch = l.epoch) ∧
          t.stackMem = s.stackMem ∧ t.logs.eventCount = s.logs.eventCount + 1)) ∧
    (takesCommand [.lender] s →
      ∃ t, exec .endLend s = .next t ∧ bgBegun .endLend s t ∧ t.dev = { s.dev with st := .scrubbing } ∧ t.tier = s.tier) ∧
    (∀ l, s.dev.st = .scrubbing → s.tier.lend = some l →
      ∃ t, exec .scrubComplete s = .next t ∧ ended (bgDone 0xC10D .ok) s t ∧ t.tier.lend = none ∧
        t.dev.st = (if s.resident.isSome then .resident else .ready) ∧
        (∀ stack slot a, stack < 16 → slot < slotsPerStack → a < slotSize →
          Tab.get 0 t.stackMem (slotKey stack slot + a) =
            if l.first ≤ stack * slotsPerStack + slot ∧ stack * slotsPerStack + slot < l.first + l.count then 0
            else Tab.get 0 s.stackMem (slotKey stack slot + a)) ∧
        t.logs.eventCount = s.logs.eventCount + 1)

/-- R215, R217, R218, R241, R249, R252, R253, R260, R264, R333, R340, R343 to R345: the host's commands on accounts, lists,
queues, sluices, keys, ports and time, each with its effect, and its answer where it is refused: SHADOW_GUARD, SET_QUOTA,
MIG_POST, TQ_POST, SLUICE_OPEN, SLUICE_CLOSE, KEY_LOAD, PORT_RESET and TIME_OFFSET_SET. -/
def Obligations.HostObjectCommands : Prop :=
  ∀ (s : State) (pl : Bytes), State.canon s = true →
    let told (i : Instr) (d : DStatus) : Prop := ∃ t, exec i s = .next t ∧ replied d [] s t ∧ onlyMailbox s t
    (takesCommand [.ready, .resident, .configured] s →
      (2 ≤ fieldB pl 0 1 → told (.shadowGuard pl) .range) ∧
      (fieldB pl 0 1 < 2 →
        ∃ t, exec (.shadowGuard pl) s = .next t ∧ replied .ok [] s t ∧
          t.dev = { s.dev with guard := fieldB pl 0 1 == 1 })) ∧
    (takesCommand listStates s →
      (quotaStatus s pl = .ok →
        let tier := fieldB pl 0 1
        let a := fieldB pl 1 1
        let fl := fieldB pl 2 1
        ∃ t, exec (.setQuota pl) s = .next t ∧ replied .ok [] s t ∧
          (bit fl 1 = true → (acctAt t tier a).limit = fieldB pl 8 8) ∧
          (bit fl 2 = true → (acctAt t tier a).hostAcc = bit fl 0) ∧
          (bit fl 3 = true → (acctAt t tier a).bundle = fieldB pl 16 1 ∧ (acctAt t tier a).base = fieldB pl 24 8) ∧
          (acctAt t tier a).used = (acctAt s tier a).used ∧
          (∀ k, k ≠ acctKey tier a → Tab.get Account.reset t.tier.accts k = Tab.get Account.reset s.tier.accts k)) ∧
      (quotaStatus s pl ≠ .ok → told (.setQuota pl) (quotaStatus s pl)) ∧
      (let l := fieldB pl 0 2
       let n := fieldB pl 4 4
       let es := (entriesAt pl 8 n).map migEntryOf
       (l < 32768 ∨ 4095 < n → told (.migPost pl) .range) ∧
       (32768 ≤ l → zeroB pl 2 2 = true → n ≤ 4095 → (entriesAt pl 8 n).all migEntryOk = true →
         (s.tier.hostQ.any (fun m => m.list == l) = true → told (.migPost pl) .duplicate) ∧
         (∀ e es', s.tier.hostQ = [] → es = e :: es' → e.count ≠ 0 →
           ∃ t, exec (.migPost pl) s = .next t ∧ replied .ok [] s t ∧
             t.tier.hostQ = [{ list := l, next := 0, done := 0, entries := es, thisRun := true, tries := 0 }] ∧
             t.tier.map = s.tier.map)))) ∧
    (takesCommand workStates s →
      (let k := fieldB pl 0 2
       let q := queueAt s k
       let b := sliceB pl 8 64
       let tag := (descOf true b).tag
       postInRange s pl = true → fieldB pl 2 1 = 1 →
       (tagKnown q tag = false → openDescs q < 256 →
         ∃ t, exec (.tqPost pl) s = .next t ∧ replied .ok (toLe 8 0 ++ toLe 1 1) s t ∧
           queueAt t k = { q with cring := fieldB pl 4 4, descs := q.descs ++ [hostDesc b q] } ∧
           (∀ j, j ≠ k → queueAt t j = queueAt s j)) ∧
       (tagKnown q tag = true →
         ∃ t, exec (.tqPost pl) s = .next t ∧ replied .ok (toLe 8 1 ++ toLe 1 0) s t ∧
           queueAt t k = { q with cring := fieldB pl 4 4, dup := satAdd q.dup 1 }) ∧
       (tagKnown q tag = false → 256 ≤ openDescs q →
         ∃ t, exec (.tqPost pl) s = .next t ∧ replied .full (toLe 8 0 ++ toLe 1 0) s t)) ∧
      (let d := fieldB pl 0 1
       let k := sluiceKey d (fieldB pl 2 2)
       openInRange pl = true →
       ((sluiceAt s k).present = true → told (.sluiceOpen pl) .state) ∧
       ((sluiceAt s k).present = false →
         (findBitmap (bitmapsOf s d) (fieldB pl 4 4) = none → told (.sluiceOpen pl) .full) ∧
         (∀ b, findBitmap (bitmapsOf s d) (fieldB pl 4 4) = some b →
           ∃ t, exec (.sluiceOpen pl) s = .next t ∧ replied .ok (toLe 4 b) s t ∧ (sluiceAt t k).present = true ∧
             (sluiceAt t k).host = true ∧ (sluiceAt t k).count = fieldB pl 4 4 ∧ (sluiceAt t k).bmap = b ∧
             (sluiceAt t k).landed = 0 ∧
             (sluiceAt t k).st = (if fieldB pl 4 4 = 0 then .complete else .opened) ∧
             (∀ j, j ≠ k → sluiceAt t j = sluiceAt s j)))) ∧
      (let d := fieldB pl 0 1
       let k := sluiceKey d (fieldB pl 2 2)
       let x := sluiceAt s k
       d < 12 → fieldB pl 2 2 < 32768 →
       (x.host = false → told (.sluiceClose pl) .range) ∧
       (zeroB pl 1 1 = true → x.host = true → x.landed = x.bits.length →
         ∃ t, exec (.sluiceClose pl) s = .next t ∧ replied .ok [] s t ∧ sluiceAt t k = Sluice.reset ∧
           (∀ j, j ≠ k → sluiceAt t j = sluiceAt s j))) ∧
      (s.cxl.ide = false → told (.keyLoad pl) .notIde) ∧
      (s.cxl.ide = true → inRun s = false → s.queues = [] ∨ (∀ p, (portAt s p).txq = []) →
        let key : KeySlot :=
          { epoch := BitVec.ofNat 8 (fieldB pl 3 1), key := sliceB pl 4 32, saltTx := sliceB pl 36 4,
            saltRx := sliceB pl 40 4 }
        ∃ t, exec (.keyLoad pl) s = .next t ∧ replied .ok [] s t ∧ s.logs.eventCount + 1 ≤ t.logs.eventCount ∧
          (∀ p, p < 24 → bit (fieldB pl 0 3) p = true →
            (if key.epoch.getLsbD 0 then (portAt t p).key1 else (portAt t p).key0) = some key) ∧
          (∀ p, bit (fieldB pl 0 3) p = false → portAt t p = portAt s p))) ∧
    (takesCommand [.ready, .resident, .configured, .safe] s →
      ∃ t, exec (.portReset pl) s = .next t ∧ replied .ok [] s t ∧
        (∀ p, p < 24 → bit (fieldB pl 0 3) p = true → (portAt t p).cnt = PortCnt.reset ∧
          ((portAt s p).role ≠ 0 → (portAt t p).st = .training) ∧ (portAt t p).role = (portAt s p).role) ∧
        (∀ p, bit (fieldB pl 0 3) p = false → portAt t p = portAt s p)) ∧
    (takesCommand allStates s →
      let v := sext 32 (fieldB pl 0 4)
      (v < -1000000 ∨ 1000000 < v → told (.timeOffsetSet pl) .range) ∧
      (-1000000 ≤ v → v ≤ 1000000 →
        ∃ t, exec (.timeOffsetSet pl) s = .next t ∧ replied .ok [] s t ∧
          t.hall = { s.hall with offset := v, offsetSet := true }))

/-! ## The whole engine -/

/-- Every command that names places of the engine is carried out to a next state, and leaves the queue to the step; one that
names a place that the engine does not have stops. That stop is the model's choice, no rule of the spec (log entry 106). -/
def Obligations.EveryCommandAnswers : Prop :=
  ∀ (i : Instr) (s : State),
    (i.wf = true → ∃ t, exec i s = .next t ∧ t.pending = s.pending) ∧
    (i.wf = false → exec i s = .fault .noSuchPlace)

/-- Every step keeps the canonical form: in every memory and table of the state keys rise and no entry is what an unlisted key
reads as: flash, stacks and their flaws; the clusters' memories, route tables, registers, table images, running values,
scoreboards and landing rows; ports with their lanes and digest rings, ring dies, sluices, queues; the map, accounts, list
records and staging lists of the tier engine; the logs, the thermal history, the readings and the merged map. -/
def Obligations.CanonicalFormIsKept : Prop :=
  ∀ (s t : State), State.canon s = true → step s = .next t → State.canon t = true

/-- R331, R335, R349: the engine at reset: no command waits, no power, STATE 0, SAFE_STATUS clear, no port, manifest,
identity or record, every memory and register reading as zero (the model's choice where the spec gives no value, log
entries 4, 5 and 8), in canonical form. -/
def Obligations.ResetState : Prop :=
  let s := State.reset
  State.canon s = true ∧ State.bgFits s = true ∧ s.pending = [] ∧ s.power.on = false ∧ s.power.pgood = false ∧
    s.dev.st = .coldStart ∧ devStatus s = 0 ∧ safeStatus s = 0 ∧ s.safe.time = 0 ∧ weirStatus s = 0 ∧ weirCtrl s = 0 ∧
    mbxLoad s = 0 ∧ gearStatus s = 0 ∧ timeStatus s = 0 ∧ tierStatus s = 0 ∧ tierPoison s = 0 ∧ s.logs.eventCount = 0 ∧
    s.resident = none ∧ s.image = none ∧ s.map.built = false ∧ s.dev.ident = false ∧
    (∀ p, portStatus (portAt s p) = 0) ∧ (∀ c, clusterAt s c = Cluster.reset) ∧ (∀ u, (mapAt s u).res = false) ∧
    (∀ a, Tab.get 0 s.stackMem a = 0) ∧ (∀ c a, Tab.get 0 (clusterAt s c).mem a = 0) ∧
    (∀ c k r, readG (inGang (clusterAt s c)) c k r (clusterAt s c) = 0) ∧
    exec .identify s = .next s ∧ step s = .next s

/-- An instruction of a scalar or a vector core that can issue, and that raises no fatal fault, changes its own cluster
alone, or, issued by the leader of a gang, the gang's clusters (R132): no other cluster, no port, ring die, stack, map, log or
register; and in its lc it leaves every memory, the route tables, the scoreboard, the landing queue and the router of a
cluster that it changes as they are: its writes commit at the end of the lc or later (R94). -/
def Obligations.InstructionFrame : Prop :=
  ∀ (i : Instr) (s t : State) (c : Nat), exec i s = .next t → t.dev.st = .running →
    ((∃ k, scalarOf i = some (c, k) ∧ (scalarCore k (clusterAt s c)).ready ≤ s.lc) ∨
      (∃ v, vectorOf i = some (c, v) ∧ (vecCore v (clusterAt s c)).ready ≤ s.lc)) →
    let own (d : Nat) : Prop := d = c ∨ (scalarOf i = some (c, .s0) ∧ ganged s c .s0 = true ∧ gangLeader c = c ∧ gangLeader d = c)
    { t with clusters := s.clusters } = s ∧
    (∀ d, ¬own d → clusterAt t d = clusterAt s d) ∧
    (∀ d, own d →
      let a := clusterAt s d
      let b := clusterAt t d
      b.mem = a.mem ∧ b.smem = a.smem ∧ b.rt0 = a.rt0 ∧ b.rt1 = a.rt1 ∧ b.sb = a.sb ∧ b.land = a.land ∧ b.pos = a.pos)

/-- R30, R349, R354, R356, R367: what no command undoes. Flash changes only as it is programmed, with FLASH_PGM_N asserted,
FLASH_VCC applied and PWR_EN deasserted (R430). While the module keeps its power, the event log only grows, the physical identity, the policies and the
grade stay, a suspect cluster stays suspect, and a bad one becomes at most suspect. The counter of the free values that are
drawn in turn only grows (the model's own field, log entry 6). -/
def Obligations.WhatLastsUntilPowerIsLost : Prop :=
  ∀ (s t : State), step s = .next t →
    (t.flash = s.flash ∨
      ∃ prog o rest, s.pending = .flashPgmN { pgm := true, vcc := true } prog o :: rest ∧ s.power.pwrEn = false ∧ t.flash = program prog s.flash) ∧
    s.freeCount ≤ t.freeCount ∧
    (s.power.on = true → t.power.on = true →
      s.logs.eventCount ≤ t.logs.eventCount ∧ t.ids.pk = s.ids.pk ∧ t.ids.secret = s.ids.secret ∧
      t.ids.idHash = s.ids.idHash ∧ t.ids.linkPub = s.ids.linkPub ∧ t.ids.policies = s.ids.policies ∧
      t.dev.physId = s.dev.physId ∧ t.dev.grade = s.dev.grade ∧
      (∀ c, Tab.get 0 s.map.marks c = markBad → Tab.get 0 t.map.marks c = markBad ∨ Tab.get 0 t.map.marks c = markSuspect) ∧
      (∀ c, Tab.get 0 s.map.marks c = markSuspect → Tab.get 0 t.map.marks c = markSuspect) ∧
      (∀ c, isGood s c = false → isGood t c = false))

/-- R331, R339, R351, R397, R399: a background command runs only in the states in which it can, and every step keeps that.
Given it, the safe state lasts, with its first fault kept and the lattice frozen, until WARM_START or the loss of power;
a failed start lasts until the loss of power. -/
def Obligations.FinalStates : Prop :=
  ∀ (s t : State), State.bgFits s = true → step s = .next t →
    State.bgFits t = true ∧
    (s.dev.st = .safe → s.power.on = true →
      t.power.on = false ∨ (t.dev.st = .safe ∧ t.safe = s.safe ∧ t.lc = s.lc ∧ t.image = s.image) ∨
        (∃ pl rest, s.pending = .warmStart pl :: rest ∧ mailboxUp s = true)) ∧
    (s.dev.st = .startFailed → s.power.on = true → t.power.on = false ∨ t.dev.st = .startFailed)
end

