-- ==== Sys2Proof/Laws/Complete.lean ====
section
/-! SUPPORT. Completion of a transfer queue's descriptor, said once (R220, R261, R262, R407): when an entry is written to the
ring, what that changes, and when the audit lets the engine go on. -/

namespace Sys2Proof.Machine

/-- No entry is written where the ring's unit is not resident, or belongs to the other side. -/
theorem writeEntry_skipped (k : Nat) (e : Bytes) (s : State)
    (h : (mapAt s (queueAt s k).cring).res = false ∨ ringBarred (queueAt s k) s = true) : writeEntry k e s = s := by
  unfold writeEntry; exact if_pos h

/-- An entry that is written counts in its queue, makes the ring's unit dirty and goes to the unit's slot. -/
theorem writeEntry_written (k : Nat) (e : Bytes) (s : State) (hr : (mapAt s (queueAt s k).cring).res = true)
    (hb : ringBarred (queueAt s k) s = false) :
    writeEntry k e s =
      updQueue k (fun q => { q with entries := q.entries + 1 })
        (updMap (queueAt s k).cring (fun m => { m with dirty := true })
          (writeStack (slotKey (mapAt s (queueAt s k).cring).stack (mapAt s (queueAt s k).cring).slot +
            16 * ((queueAt s k).completions % 1024)) e s)) := by
  unfold writeEntry; rw [if_neg (by simp [hr, hb])]

/-- An entry changes the queues, the map and the stacks, and nothing else. -/
theorem writeEntry_frame (k : Nat) (e : Bytes) (s : State) :
    writeEntry k e s =
      { s with queues := (writeEntry k e s).queues, tier := (writeEntry k e s).tier,
               stackMem := (writeEntry k e s).stackMem, stackUpsets := (writeEntry k e s).stackUpsets } := by
  unfold writeEntry; simp only; split <;> rfl

/-- The audit lets the engine go on exactly where the counts of R407 agree. -/
theorem auditQueue_agrees (k : Nat) (s : State) (h : tqCountsOk (queueAt s k) = true) : auditQueue k s = s := by
  unfold auditQueue; rw [if_pos h]

/-- Counts that agree still agree when a running descriptor completes and its entry is written. -/
theorem tqCountsOk_completes (q : Queue) (rs : List Running) (h : tqCountsOk q = true)
    (hn : rs.length + 1 = q.running.length) :
    tqCountsOk { q with completions := q.completions + 1, entries := q.entries + 1, running := rs } = true := by
  simp only [tqCountsOk, Bool.and_eq_true, beq_iff_eq] at h ⊢
  omega

end Sys2Proof.Machine
end

