-- ==== Sys2Proof/Laws/Dispatch.lean ====
section
/-! SUPPORT. Which meaning each command has: the arms of exec, one equation each. -/

namespace Sys2Proof.Machine

variable (s : State)

@[simp] theorem exec_coldStart (o : ColdOutcome) : exec (.coldStart o) s = execColdStart o s := rfl
@[simp] theorem exec_powerDown : exec (.powerDown) s = execPowerDown s := rfl
@[simp] theorem exec_feedLoss (f : Feed) (mv : Nat) : exec (.feedLoss f mv) s = execFeedLoss f mv s := rfl
@[simp] theorem exec_feedConnect (f : Feed) (mv : Nat) : exec (.feedConnect f mv) s = execFeedConnect f mv s := rfl
@[simp] theorem exec_feedOvervoltage (f : Feed) (mv : Nat) : exec (.feedOvervoltage f mv) s = execFeedOvervoltage f mv s := rfl
@[simp] theorem exec_feedUndervoltage (mvA mvB : Nat) : exec (.feedUndervoltage mvA mvB) s = execFeedUndervoltage mvA mvB s := rfl
@[simp] theorem exec_powerRemoval (mvA mvB : Nat) : exec (.powerRemoval mvA mvB) s = execPowerRemoval mvA mvB s := rfl
@[simp] theorem exec_flashPgmN (pins : FlashPins) (prog : List (Nat × Bytes)) (o : ColdOutcome) : exec (.flashPgmN pins prog o) s = execFlashPgmN pins prog o s := rfl
@[simp] theorem exec_hallReferenceChange (present inTolerance : Bool) : exec (.hallReferenceChange present inTolerance) s = execHallReferenceChange present inTolerance s := rfl
@[simp] theorem exec_htimeFrame (bits : BitVec 96) (codeOk : Bool) : exec (.htimeFrame bits codeOk) s = execHtimeFrame bits codeOk s := rfl
@[simp] theorem exec_htimeTimeout : exec (.htimeTimeout) s = execHtimeTimeout s := rfl
@[simp] theorem exec_sensorSample (rs : List Reading) : exec (.sensorSample rs) s = execSensorSample rs s := rfl
@[simp] theorem exec_sensorSilent (k : Mute) : exec (.sensorSilent k) s = execSensorSilent k s := rfl
@[simp] theorem exec_supplyFault (field : Nat) (how : SupplyHow) : exec (.supplyFault field how) s = execSupplyFault field how s := rfl
@[simp] theorem exec_watchdog : exec (.watchdog) s = execWatchdog s := rfl
@[simp] theorem exec_cableInsert (p : Nat) : exec (.cableInsert p) s = execCableInsert p s := rfl
@[simp] theorem exec_cableRemoval (p : Nat) : exec (.cableRemoval p) s = execCableRemoval p s := rfl
@[simp] theorem exec_perstNRelease (channel : Channel) : exec (.perstNRelease channel) s = execPerstNRelease channel s := rfl
@[simp] theorem exec_hotReset : exec (.hotReset) s = execHotReset s := rfl
@[simp] theorem exec_functionLevelReset : exec (.functionLevelReset) s = execFunctionLevelReset s := rfl
@[simp] theorem exec_hostLinkLoss : exec (.hostLinkLoss) s = execHostLinkLoss s := rfl
@[simp] theorem exec_hdmCommit (ways : Nat) (hdmH : Bool) : exec (.hdmCommit ways hdmH) s = execHdmCommit ways hdmH s := rfl
@[simp] theorem exec_spdmMessage (m : Spdm) : exec (.spdmMessage m) s = execSpdmMessage m s := rfl
@[simp] theorem exec_hdmRead (off len : Nat) : exec (.hdmRead off len) s = execHdmRead off len s := rfl
@[simp] theorem exec_hdmWrite (off : Nat) (data : Bytes) : exec (.hdmWrite off data) s = execHdmWrite off data s := rfl
@[simp] theorem exec_hold (v : Bool) : exec (.hold v) s = execHold v s := rfl
@[simp] theorem exec_relayDis (v : Bool) : exec (.relayDis v) s = execRelayDis v s := rfl
@[simp] theorem exec_gearReqClear (v : Bool) : exec (.gearReqClear v) s = execGearReqClear v s := rfl
@[simp] theorem exec_gearDropClear (v : Bool) : exec (.gearDropClear v) s = execGearDropClear v s := rfl
@[simp] theorem exec_frameErrRead : exec (.frameErrRead) s = execFrameErrRead s := rfl
@[simp] theorem exec_regWrite (place : RegPlace) (value : W64) : exec (.regWrite place value) s = execRegWrite place value s := rfl
@[simp] theorem exec_identify : exec (.identify) s = execIdentify s := rfl
@[simp] theorem exec_backgroundOperationStatus : exec (.backgroundOperationStatus) s = execBackgroundOperationStatus s := rfl
@[simp] theorem exec_getEventRecords : exec (.getEventRecords) s = execGetEventRecords s := rfl
@[simp] theorem exec_clearEventRecords : exec (.clearEventRecords) s = execClearEventRecords s := rfl
@[simp] theorem exec_getTimestamp : exec (.getTimestamp) s = execGetTimestamp s := rfl
@[simp] theorem exec_setTimestamp (t : W64) : exec (.setTimestamp t) s = execSetTimestamp t s := rfl
@[simp] theorem exec_getSupportedLogs : exec (.getSupportedLogs) s = execGetSupportedLogs s := rfl
@[simp] theorem exec_getLog (place : LogPlace) (len : Nat) : exec (.getLog place len) s = execGetLog place len s := rfl
@[simp] theorem exec_identifyMemoryDevice : exec (.identifyMemoryDevice) s = execIdentifyMemoryDevice s := rfl
@[simp] theorem exec_unsupported (opcode : BitVec 16) : exec (.unsupported opcode) s = execUnsupported opcode s := rfl
@[simp] theorem exec_mapRead : exec (.mapRead) s = execMapRead s := rfl
@[simp] theorem exec_load (pl : Bytes) : exec (.load pl) s = execLoad pl s := rfl
@[simp] theorem exec_verify : exec (.verify) s = execVerify s := rfl
@[simp] theorem exec_verifyDone : exec (.verifyDone) s = execVerifyDone s := rfl
@[simp] theorem exec_configure : exec (.configure) s = execConfigure s := rfl
@[simp] theorem exec_configureDone : exec (.configureDone) s = execConfigureDone s := rfl
@[simp] theorem exec_relief (pl : Bytes) : exec (.relief pl) s = execRelief pl s := rfl
@[simp] theorem exec_reliefDone : exec (.reliefDone) s = execReliefDone s := rfl
@[simp] theorem exec_run (pl : Bytes) : exec (.run pl) s = execRun pl s := rfl
@[simp] theorem exec_weirRelease (pl : Bytes) : exec (.weirRelease pl) s = execWeirRelease pl s := rfl
@[simp] theorem exec_freeze : exec (.freeze) s = execFreeze s := rfl
@[simp] theorem exec_warmStart (pl : Bytes) : exec (.warmStart pl) s = execWarmStart pl s := rfl
@[simp] theorem exec_contWarm : exec (.contWarm) s = execContWarm s := rfl
@[simp] theorem exec_warmStartDone (o : WarmOutcome) : exec (.warmStartDone o) s = execWarmStartDone o s := rfl
@[simp] theorem exec_readback (pl : Bytes) : exec (.readback pl) s = execReadback pl s := rfl
@[simp] theorem exec_readbackDone : exec (.readbackDone) s = execReadbackDone s := rfl
@[simp] theorem exec_attest (pl : Bytes) : exec (.attest pl) s = execAttest pl s := rfl
@[simp] theorem exec_attestDone : exec (.attestDone) s = execAttestDone s := rfl
@[simp] theorem exec_setIdentity (pl : Bytes) : exec (.setIdentity pl) s = execSetIdentity pl s := rfl
@[simp] theorem exec_lend (pl : Bytes) : exec (.lend pl) s = execLend pl s := rfl
@[simp] theorem exec_endLend : exec (.endLend) s = execEndLend s := rfl
@[simp] theorem exec_scrubComplete : exec (.scrubComplete) s = execScrubComplete s := rfl
@[simp] theorem exec_shadowGuard (pl : Bytes) : exec (.shadowGuard pl) s = execShadowGuard pl s := rfl
@[simp] theorem exec_setQuota (pl : Bytes) : exec (.setQuota pl) s = execSetQuota pl s := rfl
@[simp] theorem exec_migPost (pl : Bytes) : exec (.migPost pl) s = execMigPost pl s := rfl
@[simp] theorem exec_migStatus (pl : Bytes) : exec (.migStatus pl) s = execMigStatus pl s := rfl
@[simp] theorem exec_tqPost (pl : Bytes) : exec (.tqPost pl) s = execTqPost pl s := rfl
@[simp] theorem exec_sluiceOpen (pl : Bytes) : exec (.sluiceOpen pl) s = execSluiceOpen pl s := rfl
@[simp] theorem exec_sluiceClose (pl : Bytes) : exec (.sluiceClose pl) s = execSluiceClose pl s := rfl
@[simp] theorem exec_keyLoad (pl : Bytes) : exec (.keyLoad pl) s = execKeyLoad pl s := rfl
@[simp] theorem exec_portReset (pl : Bytes) : exec (.portReset pl) s = execPortReset pl s := rfl
@[simp] theorem exec_timeOffsetSet (pl : Bytes) : exec (.timeOffsetSet pl) s = execTimeOffsetSet pl s := rfl
@[simp] theorem exec_logRead (pl : Bytes) : exec (.logRead pl) s = execLogRead pl s := rfl
@[simp] theorem exec_bgResult : exec (.bgResult) s = execBgResult s := rfl
@[simp] theorem exec_alu (c : Nat) (k : Sc) (rd rs1 rs2 : BitVec 5) (fn : BitVec 11) : exec (.alu c k rd rs1 rs2 fn) s = execAlu c k rd rs1 rs2 fn s := rfl
@[simp] theorem exec_addi (c : Nat) (k : Sc) (rd rs1 : BitVec 5) (imm : BitVec 16) : exec (.addi c k rd rs1 imm) s = execAddi c k rd rs1 imm s := rfl
@[simp] theorem exec_andi (c : Nat) (k : Sc) (rd rs1 : BitVec 5) (imm : BitVec 16) : exec (.andi c k rd rs1 imm) s = execAndi c k rd rs1 imm s := rfl
@[simp] theorem exec_ori (c : Nat) (k : Sc) (rd rs1 : BitVec 5) (imm : BitVec 16) : exec (.ori c k rd rs1 imm) s = execOri c k rd rs1 imm s := rfl
@[simp] theorem exec_xori (c : Nat) (k : Sc) (rd rs1 : BitVec 5) (imm : BitVec 16) : exec (.xori c k rd rs1 imm) s = execXori c k rd rs1 imm s := rfl
@[simp] theorem exec_shi (c : Nat) (k : Sc) (rd rs1 : BitVec 5) (imm : BitVec 16) : exec (.shi c k rd rs1 imm) s = execShi c k rd rs1 imm s := rfl
@[simp] theorem exec_movk (c : Nat) (k : Sc) (rd : BitVec 5) (q : BitVec 2) (imm : BitVec 16) : exec (.movk c k rd q imm) s = execMovk c k rd q imm s := rfl
@[simp] theorem exec_beq (c : Nat) (k : Sc) (rs1 rs2 : BitVec 5) (off : BitVec 16) : exec (.beq c k rs1 rs2 off) s = execBeq c k rs1 rs2 off s := rfl
@[simp] theorem exec_bne (c : Nat) (k : Sc) (rs1 rs2 : BitVec 5) (off : BitVec 16) : exec (.bne c k rs1 rs2 off) s = execBne c k rs1 rs2 off s := rfl
@[simp] theorem exec_blt (c : Nat) (k : Sc) (rs1 rs2 : BitVec 5) (off : BitVec 16) : exec (.blt c k rs1 rs2 off) s = execBlt c k rs1 rs2 off s := rfl
@[simp] theorem exec_bge (c : Nat) (k : Sc) (rs1 rs2 : BitVec 5) (off : BitVec 16) : exec (.bge c k rs1 rs2 off) s = execBge c k rs1 rs2 off s := rfl
@[simp] theorem exec_bltu (c : Nat) (k : Sc) (rs1 rs2 : BitVec 5) (off : BitVec 16) : exec (.bltu c k rs1 rs2 off) s = execBltu c k rs1 rs2 off s := rfl
@[simp] theorem exec_bgeu (c : Nat) (k : Sc) (rs1 rs2 : BitVec 5) (off : BitVec 16) : exec (.bgeu c k rs1 rs2 off) s = execBgeu c k rs1 rs2 off s := rfl
@[simp] theorem exec_jmp (c : Nat) (k : Sc) (off : BitVec 26) : exec (.jmp c k off) s = execJmp c k off s := rfl
@[simp] theorem exec_call (c : Nat) (k : Sc) (off : BitVec 26) : exec (.call c k off) s = execCall c k off s := rfl
@[simp] theorem exec_ret (c : Nat) (k : Sc) : exec (.ret c k) s = execRet c k s := rfl
@[simp] theorem exec_loop (c : Nat) (k : Sc) (rs : BitVec 5) (len : BitVec 10) : exec (.loop c k rs len) s = execLoop c k rs len s := rfl
@[simp] theorem exec_wait (c : Nat) (k : Sc) (imm : BitVec 20) : exec (.wait c k imm) s = execWait c k imm s := rfl
@[simp] theorem exec_waitr (c : Nat) (k : Sc) (rs : BitVec 5) : exec (.waitr c k rs) s = execWaitr c k rs s := rfl
@[simp] theorem exec_mop (c : Nat) (core : BitVec 4) (idx : BitVec 11) (sub : Bool) (areg : BitVec 3) : exec (.mop c core idx sub areg) s = execMop c core idx sub areg s := rfl
@[simp] theorem exec_vstart (c : Nat) (vc : BitVec 3) (vaddr : BitVec 13) : exec (.vstart c vc vaddr) s = execVstart c vc vaddr s := rfl
@[simp] theorem exec_s1start (c : Nat) (saddr : BitVec 14) : exec (.s1start c saddr) s = execS1start c saddr s := rfl
@[simp] theorem exec_weir (c : Nat) (w : BitVec 16) (rly sent : Bool) : exec (.weir c w rly sent) s = execWeir c w rly sent s := rfl
@[simp] theorem exec_stop (c : Nat) : exec (.stop c) s = execStop c s := rfl
@[simp] theorem exec_lda (c : Nat) (rd : BitVec 5) (aBase : Bool) (rb : BitVec 5) (raw half : Bool) (off : BitVec 13) : exec (.lda c rd aBase rb raw half off) s = execLda c rd aBase rb raw half off s := rfl
@[simp] theorem exec_stn (c : Nat) (rs : BitVec 5) (aBase : Bool) (rb : BitVec 5) (off : BitVec 13) : exec (.stn c rs aBase rb off) s = execStn c rs aBase rb off s := rfl
@[simp] theorem exec_aop (c : Nat) (ad as_ fn : BitVec 3) (imm : BitVec 16) : exec (.aop c ad as_ fn imm) s = execAop c ad as_ fn imm s := rfl
@[simp] theorem exec_mova (c : Nat) (ad : BitVec 3) (rs : BitVec 5) : exec (.mova c ad rs) s = execMova c ad rs s := rfl
@[simp] theorem exec_tload (c : Nat) (vc : BitVec 3) (deriv aBase : Bool) (rb : BitVec 5) : exec (.tload c vc deriv aBase rb) s = execTload c vc deriv aBase rb s := rfl
@[simp] theorem exec_gload (c : Nat) (vc : BitVec 3) (aBase : Bool) (rb : BitVec 5) : exec (.gload c vc aBase rb) s = execGload c vc aBase rb s := rfl
@[simp] theorem exec_s1End (c : Nat) : exec (.s1End c) s = execS1End c s := rfl
@[simp] theorem exec_fadd (c v : Nat) (vd va vb : BitVec 5) (m : BitVec 3) : exec (.fadd c v vd va vb m) s = execFadd c v vd va vb m s := rfl
@[simp] theorem exec_fsub (c v : Nat) (vd va vb : BitVec 5) (m : BitVec 3) : exec (.fsub c v vd va vb m) s = execFsub c v vd va vb m s := rfl
@[simp] theorem exec_fmul (c v : Nat) (vd va vb : BitVec 5) (m : BitVec 3) : exec (.fmul c v vd va vb m) s = execFmul c v vd va vb m s := rfl
@[simp] theorem exec_fma (c v : Nat) (vd va vb vc : BitVec 5) (m : BitVec 3) : exec (.fma c v vd va vb vc m) s = execFma c v vd va vb vc m s := rfl
@[simp] theorem exec_fms (c v : Nat) (vd va vb vc : BitVec 5) (m : BitVec 3) : exec (.fms c v vd va vb vc m) s = execFms c v vd va vb vc m s := rfl
@[simp] theorem exec_fnma (c v : Nat) (vd va vb vc : BitVec 5) (m : BitVec 3) : exec (.fnma c v vd va vb vc m) s = execFnma c v vd va vb vc m s := rfl
@[simp] theorem exec_fnms (c v : Nat) (vd va vb vc : BitVec 5) (m : BitVec 3) : exec (.fnms c v vd va vb vc m) s = execFnms c v vd va vb vc m s := rfl
@[simp] theorem exec_fmin (c v : Nat) (vd va vb : BitVec 5) (m : BitVec 3) : exec (.fmin c v vd va vb m) s = execFmin c v vd va vb m s := rfl
@[simp] theorem exec_fmax (c v : Nat) (vd va vb : BitVec 5) (m : BitVec 3) : exec (.fmax c v vd va vb m) s = execFmax c v vd va vb m s := rfl
@[simp] theorem exec_fabs (c v : Nat) (vd va : BitVec 5) (m : BitVec 3) : exec (.fabs c v vd va m) s = execFabs c v vd va m s := rfl
@[simp] theorem exec_fneg (c v : Nat) (vd va : BitVec 5) (m : BitVec 3) : exec (.fneg c v vd va m) s = execFneg c v vd va m s := rfl
@[simp] theorem exec_fcmp (c v : Nat) (vd va vb : BitVec 5) (m : BitVec 3) (fn : BitVec 8) : exec (.fcmp c v vd va vb m fn) s = execFcmp c v vd va vb m fn s := rfl
@[simp] theorem exec_sel (c v : Nat) (vd va vb vc : BitVec 5) (m : BitVec 3) : exec (.sel c v vd va vb vc m) s = execSel c v vd va vb vc m s := rfl
@[simp] theorem exec_iadd (c v : Nat) (vd va vb : BitVec 5) (m : BitVec 3) : exec (.iadd c v vd va vb m) s = execIadd c v vd va vb m s := rfl
@[simp] theorem exec_isub (c v : Nat) (vd va vb : BitVec 5) (m : BitVec 3) : exec (.isub c v vd va vb m) s = execIsub c v vd va vb m s := rfl
@[simp] theorem exec_iand (c v : Nat) (vd va vb : BitVec 5) (m : BitVec 3) : exec (.iand c v vd va vb m) s = execIand c v vd va vb m s := rfl
@[simp] theorem exec_ior (c v : Nat) (vd va vb : BitVec 5) (m : BitVec 3) : exec (.ior c v vd va vb m) s = execIor c v vd va vb m s := rfl
@[simp] theorem exec_ixor (c v : Nat) (vd va vb : BitVec 5) (m : BitVec 3) : exec (.ixor c v vd va vb m) s = execIxor c v vd va vb m s := rfl
@[simp] theorem exec_ishl (c v : Nat) (vd va vb : BitVec 5) (m : BitVec 3) : exec (.ishl c v vd va vb m) s = execIshl c v vd va vb m s := rfl
@[simp] theorem exec_ishr (c v : Nat) (vd va vb : BitVec 5) (m : BitVec 3) : exec (.ishr c v vd va vb m) s = execIshr c v vd va vb m s := rfl
@[simp] theorem exec_isar (c v : Nat) (vd va vb : BitVec 5) (m : BitVec 3) : exec (.isar c v vd va vb m) s = execIsar c v vd va vb m s := rfl
@[simp] theorem exec_icmp (c v : Nat) (vd va vb : BitVec 5) (m : BitVec 3) (fn : BitVec 8) : exec (.icmp c v vd va vb m fn) s = execIcmp c v vd va vb m fn s := rfl
@[simp] theorem exec_wadd (c v : Nat) (vd va vb : BitVec 5) (m : BitVec 3) : exec (.wadd c v vd va vb m) s = execWadd c v vd va vb m s := rfl
@[simp] theorem exec_wsub (c v : Nat) (vd va vb : BitVec 5) (m : BitVec 3) : exec (.wsub c v vd va vb m) s = execWsub c v vd va vb m s := rfl
@[simp] theorem exec_bcast (c v : Nat) (vd va : BitVec 5) (m : BitVec 3) (fn : BitVec 8) : exec (.bcast c v vd va m fn) s = execBcast c v vd va m fn s := rfl
@[simp] theorem exec_perm (c v : Nat) (vd va : BitVec 5) (m : BitVec 3) (fn : BitVec 8) : exec (.perm c v vd va m fn) s = execPerm c v vd va m fn s := rfl
@[simp] theorem exec_unpk (c v : Nat) (vd va : BitVec 5) (m : BitVec 3) (fn : BitVec 8) : exec (.unpk c v vd va m fn) s = execUnpk c v vd va m fn s := rfl
@[simp] theorem exec_rsum (c v : Nat) (vd va : BitVec 5) (m : BitVec 3) : exec (.rsum c v vd va m) s = execRsum c v vd va m s := rfl
@[simp] theorem exec_rmin (c v : Nat) (vd va : BitVec 5) (m : BitVec 3) : exec (.rmin c v vd va m) s = execRmin c v vd va m s := rfl
@[simp] theorem exec_rmax (c v : Nat) (vd va : BitVec 5) (m : BitVec 3) : exec (.rmax c v vd va m) s = execRmax c v vd va m s := rfl
@[simp] theorem exec_teval (c v : Nat) (vd va : BitVec 5) (m : BitVec 3) (fn : BitVec 8) : exec (.teval c v vd va m fn) s = execTeval c v vd va m fn s := rfl
@[simp] theorem exec_tgrad (c v : Nat) (vd va vb : BitVec 5) (m : BitVec 3) (fn : BitVec 8) : exec (.tgrad c v vd va vb m fn) s = execTgrad c v vd va vb m fn s := rfl
@[simp] theorem exec_cvt (c v : Nat) (vd va : BitVec 5) (m : BitVec 3) (src dst : BitVec 4) (rm : BitVec 2) : exec (.cvt c v vd va m src dst rm) s = execCvt c v vd va m src dst rm s := rfl
@[simp] theorem exec_cvtmx (c v : Nat) (vd va vc : BitVec 5) (m : BitVec 3) (dst : BitVec 4) (rm : BitVec 2) : exec (.cvtmx c v vd va vc m dst rm) s = execCvtmx c v vd va vc m dst rm s := rfl
@[simp] theorem exec_cvtxf (c v : Nat) (vd va vb : BitVec 5) (m : BitVec 3) (src : BitVec 4) : exec (.cvtxf c v vd va vb m src) s = execCvtxf c v vd va vb m src s := rfl
@[simp] theorem exec_cvtg (c v : Nat) (vd va vb : BitVec 5) (m : BitVec 3) : exec (.cvtg c v vd va vb m) s = execCvtg c v vd va vb m s := rfl
@[simp] theorem exec_cvts (c v : Nat) (vd va : BitVec 5) (m : BitVec 3) : exec (.cvts c v vd va m) s = execCvts c v vd va m s := rfl
@[simp] theorem exec_cvtsf (c v : Nat) (vd va : BitVec 5) (m : BitVec 3) : exec (.cvtsf c v vd va m) s = execCvtsf c v vd va m s := rfl
@[simp] theorem exec_scnt (c v : Nat) (vd va vb vc sreg : BitVec 5) (m : BitVec 3) : exec (.scnt c v vd va vb vc sreg m) s = execScnt c v vd va vb vc sreg m s := rfl
@[simp] theorem exec_dbegin (c v : Nat) (va : BitVec 5) : exec (.dbegin c v va) s = execDbegin c v va s := rfl
@[simp] theorem exec_dfold (c v : Nat) (va : BitVec 5) : exec (.dfold c v va) s = execDfold c v va s := rfl
@[simp] theorem exec_dfoldt (c v : Nat) (va : BitVec 5) (cnt : BitVec 4) : exec (.dfoldt c v va cnt) s = execDfoldt c v va cnt s := rfl
@[simp] theorem exec_dend (c v : Nat) : exec (.dend c v) s = execDend c v s := rfl
@[simp] theorem exec_dread (c v : Nat) (x : VAddr) : exec (.dread c v x) s = execDread c v x s := rfl
@[simp] theorem exec_dclr (c v : Nat) : exec (.dclr c v) s = execDclr c v s := rfl
@[simp] theorem exec_gst (c v : Nat) (x : VAddr) : exec (.gst c v x) s = execGst c v x s := rfl
@[simp] theorem exec_gdraw (c v : Nat) (vd : BitVec 5) (m : BitVec 3) (adv : Bool) : exec (.gdraw c v vd m adv) s = execGdraw c v vd m adv s := rfl
@[simp] theorem exec_gdrawi (c v : Nat) (vd va : BitVec 5) (m : BitVec 3) : exec (.gdrawi c v vd va m) s = execGdrawi c v vd va m s := rfl
@[simp] theorem exec_ld (c v : Nat) (vd : BitVec 5) (m : BitVec 3) (x : VAddr) : exec (.ld c v vd m x) s = execLd c v vd m x s := rfl
@[simp] theorem exec_st (c v : Nat) (va : BitVec 5) (x : VAddr) : exec (.st c v va x) s = execSt c v va x s := rfl
@[simp] theorem exec_pop (c v : Nat) (vd : BitVec 5) (m : BitVec 3) (half : Bool) : exec (.pop c v vd m half) s = execPop c v vd m half s := rfl
@[simp] theorem exec_push (c v : Nat) (va : BitVec 5) : exec (.push c v va) s = execPush c v va s := rfl
@[simp] theorem exec_li (c v : Nat) (vd : BitVec 5) (m : BitVec 3) (imm : W32) : exec (.li c v vd m imm) s = execLi c v vd m imm s := rfl
@[simp] theorem exec_rep (c v : Nat) (len : BitVec 4) (n : BitVec 16) : exec (.rep c v len n) s = execRep c v len n s := rfl
@[simp] theorem exec_vectorEnd (c v : Nat) : exec (.vectorEnd c v) s = execVectorEnd c v s := rfl
@[simp] theorem exec_flit (c : Nat) (inp : Dir) (f : Crossing) : exec (.flit c inp f) s = execFlit c inp f s := rfl
@[simp] theorem exec_landingWrite (c : Nat) : exec (.landingWrite c) s = execLandingWrite c s := rfl
@[simp] theorem exec_gateInject (g : GateId) : exec (.gateInject g) s = execGateInject g s := rfl
@[simp] theorem exec_gateExtract (g : GateId) : exec (.gateExtract g) s = execGateExtract g s := rfl
@[simp] theorem exec_arrive (c : Nat) (w : Nat) : exec (.arrive c w) s = execArrive c w s := rfl
@[simp] theorem exec_landed (c : Nat) (w : Nat) : exec (.landed c w) s = execLanded c w s := rfl
@[simp] theorem exec_conditionLatch (deferred : Bool) (i : Nat) : exec (.conditionLatch deferred i) s = execConditionLatch deferred i s := rfl
@[simp] theorem exec_release : exec (.release) s = execRelease s := rfl
@[simp] theorem exec_sluiceDrained (d i : Nat) : exec (.sluiceDrained d i) s = execSluiceDrained d i s := rfl
@[simp] theorem exec_resume : exec (.resume) s = execResume s := rfl
@[simp] theorem exec_sentinelRoutine (c : Nat) (hash : W128) : exec (.sentinelRoutine c hash) s = execSentinelRoutine c hash s := rfl
@[simp] theorem exec_relayEligible : exec (.relayEligible) s = execRelayEligible s := rfl
@[simp] theorem exec_relayChoice : exec (.relayChoice) s = execRelayChoice s := rfl
@[simp] theorem exec_digestRead (i : Nat) : exec (.digestRead i) s = execDigestRead i s := rfl
@[simp] theorem exec_weirDeadline : exec (.weirDeadline) s = execWeirDeadline s := rfl
@[simp] theorem exec_runEnd : exec (.runEnd) s = execRunEnd s := rfl
@[simp] theorem exec_pcsLock (p : Nat) : exec (.pcsLock p) s = execPcsLock p s := rfl
@[simp] theorem exec_linkInit (p : Nat) (frame : Bytes) : exec (.linkInit p frame) s = execLinkInit p frame s := rfl
@[simp] theorem exec_portFlit (p : Nat) (bytes : Bytes) (badCodeword : Bool) : exec (.portFlit p bytes badCodeword) s = execPortFlit p bytes badCodeword s := rfl
@[simp] theorem exec_replayTimeout (p ch : Nat) : exec (.replayTimeout p ch) s = execReplayTimeout p ch s := rfl
@[simp] theorem exec_retrainComplete (p : Nat) : exec (.retrainComplete p) s = execRetrainComplete p s := rfl
@[simp] theorem exec_portDown (p : Nat) : exec (.portDown p) s = execPortDown p s := rfl
@[simp] theorem exec_auditSend (p lane : Nat) : exec (.auditSend p lane) s = execAuditSend p lane s := rfl
@[simp] theorem exec_audit (p : Nat) (frame : Bytes) : exec (.audit p frame) s = execAudit p frame s := rfl
@[simp] theorem exec_cease (p : Nat) (frame : Bytes) : exec (.cease p frame) s = execCease p frame s := rfl
@[simp] theorem exec_marker (p : Nat) (frame : Bytes) : exec (.marker p frame) s = execMarker p frame s := rfl
@[simp] theorem exec_digest (p : Nat) (frame : Bytes) : exec (.digest p frame) s = execDigest p frame s := rfl
@[simp] theorem exec_commitAck (p : Nat) (frame : Bytes) : exec (.commitAck p frame) s = execCommitAck p frame s := rfl
@[simp] theorem exec_tile (p vl : Nat) (frame : Bytes) : exec (.tile p vl frame) s = execTile p vl frame s := rfl
@[simp] theorem exec_landingBufferReserve (d : Nat) : exec (.landingBufferReserve d) s = execLandingBufferReserve d s := rfl
@[simp] theorem exec_shardReq (p vl : Nat) (frame : Bytes) : exec (.shardReq p vl frame) s = execShardReq p vl frame s := rfl
@[simp] theorem exec_homeRead (p vl : Nat) (frame : Bytes) : exec (.homeRead p vl frame) s = execHomeRead p vl frame s := rfl
@[simp] theorem exec_homeWrite (p vl : Nat) (frame : Bytes) : exec (.homeWrite p vl frame) s = execHomeWrite p vl frame s := rfl
@[simp] theorem exec_homeData (p vl : Nat) (frame : Bytes) : exec (.homeData p vl frame) s = execHomeData p vl frame s := rfl
@[simp] theorem exec_shardCheck (d : Nat) : exec (.shardCheck d) s = execShardCheck d s := rfl
@[simp] theorem exec_descriptorStart (q : Nat) : exec (.descriptorStart q) s = execDescriptorStart q s := rfl
@[simp] theorem exec_descriptorComplete (q : Nat) (tag : W32) : exec (.descriptorComplete q tag) s = execDescriptorComplete q tag s := rfl
@[simp] theorem exec_timeout (q : Nat) (tag : W32) : exec (.timeout q tag) s = execTimeout q tag s := rfl
@[simp] theorem exec_fetch (host : Bool) (home : Option Bytes) : exec (.fetch host home) s = execFetch host home s := rfl
@[simp] theorem exec_evict (host acked : Bool) : exec (.evict host acked) s = execEvict host acked s := rfl
@[simp] theorem exec_writeback (host acked : Bool) : exec (.writeback host acked) s = execWriteback host acked s := rfl
@[simp] theorem exec_drop (host : Bool) : exec (.drop host) s = execDrop host s := rfl
@[simp] theorem exec_alloc (host : Bool) : exec (.alloc host) s = execAlloc host s := rfl
@[simp] theorem exec_move (host : Bool) : exec (.move host) s = execMove host s := rfl
@[simp] theorem exec_bind (host : Bool) : exec (.bind host) s = execBind host s := rfl
@[simp] theorem exec_unbind (host : Bool) : exec (.unbind host) s = execUnbind host s := rfl
@[simp] theorem exec_stagingRead (stack list : Nat) : exec (.stagingRead stack list) s = execStagingRead stack list s := rfl
@[simp] theorem exec_store (stack list : Nat) : exec (.store stack list) s = execStore stack list s := rfl
@[simp] theorem exec_addF32 (stack list : Nat) : exec (.addF32 stack list) s = execAddF32 stack list s := rfl
@[simp] theorem exec_addI64 (stack list : Nat) : exec (.addI64 stack list) s = execAddI64 stack list s := rfl
@[simp] theorem exec_busOrHubSupplyFault : exec (.busOrHubSupplyFault) s = execBusOrHubSupplyFault s := rfl
@[simp] theorem exec_thermalHistoryRecord : exec (.thermalHistoryRecord) s = execThermalHistoryRecord s := rfl

end Sys2Proof.Machine
end

