-- ==== Sys2Proof/Laws/Table.lean ====
section
/-! SUPPORT. The laws of sparse tables and byte memories: reads after writes, and every operation keeps the canonical
form. -/

namespace Sys2Proof

variable {α : Type} [DecidableEq α] {d : α}

/-! ## Reads after writes -/

@[simp] theorem Tab.get_nil (k : Nat) : Tab.get d [] k = d := rfl

/-- A write leaves every other key alone. -/
theorem Tab.get_set_ne (t : Tab α) (k j : Nat) (v : α) (h : j ≠ k) : Tab.get d (Tab.set d t k v) j = Tab.get d t j := by
  induction t with
  | nil => by_cases hv : v = d <;> simp [Tab.set, hv, Tab.get, Ne.symm h]
  | cons e t ih =>
    obtain ⟨k', w⟩ := e
    unfold Tab.set
    split
    · split <;> simp [Tab.get, Ne.symm h]
    · split
      · subst_vars; split <;> simp [Tab.get, Ne.symm h]
      · simp [Tab.get, ih]

/-- A value other than the default reads back, whatever the table. -/
theorem Tab.get_set_of_ne (t : Tab α) (k : Nat) (v : α) (h : v ≠ d) : Tab.get d (Tab.set d t k v) k = v := by
  induction t with
  | nil => simp [Tab.set, h, Tab.get]
  | cons e t ih =>
    obtain ⟨k', w⟩ := e
    unfold Tab.set
    split
    · simp [h, Tab.get]
    · split
      · simp [h, Tab.get]
      · rename_i h1 h2; simp [Tab.get, Ne.symm h2, ih]

/-- Keys below a canonical table's first key read as the default. -/
theorem Tab.get_of_wfFrom (t : Tab α) (lo k : Nat) (h : Tab.wfFrom d lo t = true) (hk : k < lo) : Tab.get d t k = d := by
  induction t generalizing lo with
  | nil => rfl
  | cons e t ih =>
    obtain ⟨k', w⟩ := e
    simp only [Tab.wfFrom, Bool.and_eq_true, decide_eq_true_eq] at h
    have : k' ≠ k := by omega
    simp [Tab.get, this, ih (k' + 1) h.2 (by omega)]

/-- In canonical form every value reads back. -/
theorem Tab.get_set_eq (t : Tab α) (lo k : Nat) (v : α) (h : Tab.wfFrom d lo t = true) :
    Tab.get d (Tab.set d t k v) k = v := by
  by_cases hv : v = d
  · subst hv
    induction t generalizing lo with
    | nil => simp [Tab.set]
    | cons e t ih =>
      obtain ⟨k', w⟩ := e
      simp only [Tab.wfFrom, Bool.and_eq_true, decide_eq_true_eq] at h
      unfold Tab.set
      split
      · rename_i hk
        have : k' ≠ k := by omega
        simp [Tab.get, this, Tab.get_of_wfFrom t (k' + 1) k h.2 (by omega)]
      · split
        · subst_vars; simpa using Tab.get_of_wfFrom t (k' + 1) k' h.2 (by omega)
        · rename_i h1 h2; simp [Tab.get, Ne.symm h2, ih (k' + 1) h.2]
  · exact Tab.get_set_of_ne t k v hv

/-- In canonical form every value reads back, and every other key as before. -/
theorem Tab.get_set (t : Tab α) (k j : Nat) (v : α) (h : Tab.wf d t = true) :
    Tab.get d (Tab.set d t k v) j = if j = k then v else Tab.get d t j := by
  split
  · rename_i e; subst e; exact Tab.get_set_eq t 0 j v h
  · rename_i e; exact Tab.get_set_ne t k j v e

/-- In canonical form an updated key reads as the function of what it read. -/
theorem Tab.get_upd (t : Tab α) (k j : Nat) (f : α → α) (h : Tab.wf d t = true) :
    Tab.get d (Tab.upd d t k f) j = if j = k then f (Tab.get d t k) else Tab.get d t j :=
  Tab.get_set t k j _ h

/-! ## The canonical form is kept -/

/-- A canonical table is one from any lower bound. -/
theorem Tab.wfFrom_mono (t : Tab α) (lo lo' : Nat) (h : Tab.wfFrom d lo t = true) (hl : lo' ≤ lo) :
    Tab.wfFrom d lo' t = true := by
  cases t with
  | nil => rfl
  | cons e t =>
    simp only [Tab.wfFrom, Bool.and_eq_true, decide_eq_true_eq] at h ⊢
    exact ⟨⟨by omega, h.1.2⟩, h.2⟩

theorem Tab.wfFrom_set (t : Tab α) (lo k : Nat) (v : α) (h : Tab.wfFrom d lo t = true) (hk : lo ≤ k) :
    Tab.wfFrom d lo (Tab.set d t k v) = true := by
  induction t generalizing lo with
  | nil => by_cases hv : v = d <;> simp [Tab.set, hv, Tab.wfFrom, hk]
  | cons e t ih =>
    obtain ⟨k', w⟩ := e
    have h' := h
    simp only [Tab.wfFrom, Bool.and_eq_true, decide_eq_true_eq] at h
    unfold Tab.set
    split
    · rename_i hlt
      split
      · exact h'
      · rename_i hv
        simp only [Tab.wfFrom, Bool.and_eq_true, decide_eq_true_eq]
        exact ⟨⟨hk, hv⟩, ⟨⟨by omega, h.1.2⟩, h.2⟩⟩
    · split
      · subst_vars
        split
        · exact Tab.wfFrom_mono t _ _ h.2 (by omega)
        · rename_i hv
          simp only [Tab.wfFrom, Bool.and_eq_true, decide_eq_true_eq]
          exact ⟨⟨hk, hv⟩, h.2⟩
      · simp only [Tab.wfFrom, Bool.and_eq_true, decide_eq_true_eq]
        exact ⟨h.1, ih _ h.2 (by omega)⟩

/-- A write keeps the canonical form. -/
theorem Tab.wf_set (t : Tab α) (k : Nat) (v : α) (h : Tab.wf d t = true) : Tab.wf d (Tab.set d t k v) = true :=
  Tab.wfFrom_set t 0 k v h (Nat.zero_le k)

/-- An update keeps the canonical form. -/
theorem Tab.wf_upd (t : Tab α) (k : Nat) (f : α → α) (h : Tab.wf d t = true) : Tab.wf d (Tab.upd d t k f) = true :=
  Tab.wf_set t k _ h

theorem Tab.wfFrom_filter (t : Tab α) (lo : Nat) (p : Nat × α → Bool) (h : Tab.wfFrom d lo t = true) :
    Tab.wfFrom d lo (t.filter p) = true := by
  induction t generalizing lo with
  | nil => rfl
  | cons e t ih =>
    simp only [Tab.wfFrom, Bool.and_eq_true, decide_eq_true_eq] at h
    rw [List.filter_cons]
    split
    · simp only [Tab.wfFrom, Bool.and_eq_true, decide_eq_true_eq]
      exact ⟨h.1, ih _ h.2⟩
    · exact Tab.wfFrom_mono _ _ _ (ih _ h.2) (by omega)

/-- Leaving entries out keeps the canonical form. -/
theorem Tab.wf_filter (t : Tab α) (p : Nat × α → Bool) (h : Tab.wf d t = true) : Tab.wf d (t.filter p) = true :=
  Tab.wfFrom_filter t 0 p h

/-- Clearing a range keeps the canonical form. -/
theorem Tab.wf_clearRange (t : Tab α) (lo hi : Nat) (h : Tab.wf d t = true) : Tab.wf d (Tab.clearRange t lo hi) = true :=
  Tab.wf_filter t _ h

theorem Tab.wfFrom_mapVals (t : Tab α) (lo : Nat) (f : Nat → α → α) (h : Tab.wfFrom d lo t = true) :
    Tab.wfFrom d lo (Tab.mapVals d f t) = true := by
  induction t generalizing lo with
  | nil => rfl
  | cons e t ih =>
    obtain ⟨k, v⟩ := e
    simp only [Tab.wfFrom, Bool.and_eq_true, decide_eq_true_eq] at h
    unfold Tab.mapVals
    split
    · exact Tab.wfFrom_mono _ _ _ (ih _ h.2) (by omega)
    · rename_i hv
      simp only [Tab.wfFrom, Bool.and_eq_true, decide_eq_true_eq]
      exact ⟨⟨h.1.1, hv⟩, ih _ h.2⟩

/-- A function applied to every value keeps the canonical form. -/
theorem Tab.wf_mapVals (t : Tab α) (f : Nat → α → α) (h : Tab.wf d t = true) : Tab.wf d (Tab.mapVals d f t) = true :=
  Tab.wfFrom_mapVals t 0 f h

/-- A canonical table lists no value that an unlisted key reads as. -/
theorem Tab.ne_of_mem (t : Tab α) (lo : Nat) (h : Tab.wfFrom d lo t = true) (e : Nat × α) (he : e ∈ t) :
    lo ≤ e.1 ∧ e.2 ≠ d := by
  induction t generalizing lo with
  | nil => cases he
  | cons x t ih =>
    simp only [Tab.wfFrom, Bool.and_eq_true, decide_eq_true_eq] at h
    rcases List.mem_cons.1 he with rfl | he
    · exact h.1
    · have := ih _ h.2 he; exact ⟨by omega, this.2⟩

/-- What a canonical table lists is what its key reads as. -/
theorem Tab.get_of_mem (t : Tab α) (lo : Nat) (h : Tab.wfFrom d lo t = true) (e : Nat × α) (he : e ∈ t) :
    Tab.get d t e.1 = e.2 := by
  induction t generalizing lo with
  | nil => cases he
  | cons x t ih =>
    simp only [Tab.wfFrom, Bool.and_eq_true, decide_eq_true_eq] at h
    rcases List.mem_cons.1 he with rfl | he
    · simp [Tab.get]
    · have := (Tab.ne_of_mem t _ h.2 e he).1
      have hne : x.1 ≠ e.1 := by omega
      simpa [Tab.get, hne] using ih _ h.2 he

/-- After a function is applied to every value, a key reads as the function of what it read, when the function keeps the
default. -/
theorem Tab.get_mapVals (t : Tab α) (lo : Nat) (f : Nat → α → α) (k : Nat) (h : Tab.wfFrom d lo t = true)
    (hd : f k d = d) : Tab.get d (Tab.mapVals d f t) k = f k (Tab.get d t k) := by
  induction t generalizing lo with
  | nil => simpa [Tab.mapVals] using hd.symm
  | cons e t ih =>
    obtain ⟨k', v⟩ := e
    simp only [Tab.wfFrom, Bool.and_eq_true, decide_eq_true_eq] at h
    by_cases hk : k' = k
    · subst hk
      unfold Tab.mapVals
      split
      · rename_i hv
        rw [ih _ h.2, Tab.get_of_wfFrom t (k' + 1) k' h.2 (by omega)]
        simp [Tab.get, hv, hd]
      · simp [Tab.get]
    · unfold Tab.mapVals
      split <;> simp [Tab.get, hk, ih _ h.2]

/-- A key that a filter keeps reads as before. -/
theorem Tab.get_filter_of (t : Tab α) (p : Nat × α → Bool) (k : Nat) (h : ∀ v, p (k, v) = true) :
    Tab.get d (t.filter p) k = Tab.get d t k := by
  induction t with
  | nil => rfl
  | cons e t ih =>
    obtain ⟨k', v⟩ := e
    rw [List.filter_cons]
    by_cases hk : k' = k
    · subst hk; simp [h, Tab.get]
    · split <;> simp [Tab.get, hk, ih]

/-- A key that a filter drops reads as the default. -/
theorem Tab.get_filter_not (t : Tab α) (p : Nat × α → Bool) (k : Nat) (h : ∀ v, p (k, v) = false) :
    Tab.get d (t.filter p) k = d := by
  induction t with
  | nil => rfl
  | cons e t ih =>
    obtain ⟨k', v⟩ := e
    rw [List.filter_cons]
    by_cases hk : k' = k
    · subst hk; simp [h, ih]
    · split <;> simp [Tab.get, hk, ih]

/-- A cleared range reads as the default, and every other key as before. -/
theorem Tab.get_clearRange (t : Tab α) (lo hi k : Nat) :
    Tab.get d (Tab.clearRange t lo hi) k = if lo ≤ k ∧ k < hi then d else Tab.get d t k := by
  unfold Tab.clearRange
  split
  · apply Tab.get_filter_not; intro v; simp; omega
  · apply Tab.get_filter_of; intro v; simp; omega

/-! ## Byte memories -/

/-- Writing bytes keeps the canonical form. -/
theorem Mem.wf_write (m : Mem) (b : Byte) (a : Nat) (bs : Bytes) (h : Tab.wf b m = true) :
    Tab.wf b (Mem.write b m a bs) = true := by
  induction bs generalizing m a with
  | nil => exact h
  | cons x bs ih => exact ih _ _ (Tab.wf_set m a x h)

/-- A byte outside the bytes written reads as before. -/
theorem Mem.get_write_out (m : Mem) (b : Byte) (a k : Nat) (bs : Bytes) (h : k < a ∨ a + bs.length ≤ k) :
    Tab.get b (Mem.write b m a bs) k = Tab.get b m k := by
  induction bs generalizing m a with
  | nil => rfl
  | cons x bs ih =>
    simp only [List.length_cons] at h
    rw [Mem.write, ih _ _ (by omega), Tab.get_set_ne _ _ _ _ (by omega)]

/-- The bytes written read back, in canonical form. -/
theorem Mem.get_write_in (m : Mem) (b : Byte) (a i : Nat) (bs : Bytes) (h : Tab.wf b m = true) (hi : i < bs.length) :
    Tab.get b (Mem.write b m a bs) (a + i) = bs[i] := by
  induction bs generalizing m a i with
  | nil => exact absurd hi (Nat.not_lt_zero _)
  | cons x bs ih =>
    rw [Mem.write]
    cases i with
    | zero => rw [Mem.get_write_out _ _ _ _ _ (by omega)]; exact Tab.get_set_eq m 0 a x h
    | succ i =>
      have := ih (Tab.set b m a x) (a + 1) i (Tab.wf_set m a x h) (by simpa using hi)
      rw [show a + (i + 1) = a + 1 + i by omega, this]; rfl

@[simp] theorem Mem.length_read (m : Mem) (b : Byte) (a n : Nat) : (Mem.read b m a n).length = n := by
  induction n generalizing a with
  | zero => rfl
  | succ n ih => simp [Mem.read, ih]

/-- A read takes each byte from its own address. -/
theorem Mem.getElem_read (m : Mem) (b : Byte) (a n i : Nat) (h : i < (Mem.read b m a n).length) :
    (Mem.read b m a n)[i] = Tab.get b m (a + i) := by
  induction n generalizing a i with
  | zero => simp at h
  | succ n ih =>
    cases i with
    | zero => rfl
    | succ i =>
      have := ih (a + 1) i (by simpa using h)
      rw [show a + (i + 1) = a + 1 + i by omega, ← this]; rfl

/-- What is written reads back, in canonical form. -/
theorem Mem.read_write (m : Mem) (b : Byte) (a : Nat) (bs : Bytes) (h : Tab.wf b m = true) :
    Mem.read b (Mem.write b m a bs) a bs.length = bs := by
  apply List.ext_getElem
  · simp
  · intro i h1 h2
    rw [Mem.getElem_read, Mem.get_write_in m b a i bs h h2]

/-- A read apart from the bytes written is as before. -/
theorem Mem.read_write_apart (m : Mem) (b : Byte) (a k n : Nat) (bs : Bytes) (h : k + n ≤ a ∨ a + bs.length ≤ k) :
    Mem.read b (Mem.write b m a bs) k n = Mem.read b m k n := by
  apply List.ext_getElem
  · simp
  · intro i h1 h2
    simp only [Mem.length_read] at h1
    rw [Mem.getElem_read, Mem.getElem_read, Mem.get_write_out _ _ _ _ _ (by omega)]

end Sys2Proof
end

