-- ==== Sys2Proof/Laws/State.lean ====
section
/-! SUPPORT. What each update of the state leaves alone, one lemma per field and update, and what a table reads after
an update of one of its entries. -/

namespace Sys2Proof.Machine

variable (s : State)

/-! ## After a cluster put back -/

@[simp] theorem setCluster_pending (c : Nat) (k : Cluster) : (setCluster c k s).pending = s.pending := rfl
@[simp] theorem setCluster_freeCount (c : Nat) (k : Cluster) : (setCluster c k s).freeCount = s.freeCount := rfl
@[simp] theorem setCluster_lc (c : Nat) (k : Cluster) : (setCluster c k s).lc = s.lc := rfl
@[simp] theorem setCluster_lastRelease (c : Nat) (k : Cluster) : (setCluster c k s).lastRelease = s.lastRelease := rfl
@[simp] theorem setCluster_power (c : Nat) (k : Cluster) : (setCluster c k s).power = s.power := rfl
@[simp] theorem setCluster_heat (c : Nat) (k : Cluster) : (setCluster c k s).heat = s.heat := rfl
@[simp] theorem setCluster_hall (c : Nat) (k : Cluster) : (setCluster c k s).hall = s.hall := rfl
@[simp] theorem setCluster_dev (c : Nat) (k : Cluster) : (setCluster c k s).dev = s.dev := rfl
@[simp] theorem setCluster_mbx (c : Nat) (k : Cluster) : (setCluster c k s).mbx = s.mbx := rfl
@[simp] theorem setCluster_cxl (c : Nat) (k : Cluster) : (setCluster c k s).cxl = s.cxl := rfl
@[simp] theorem setCluster_safe (c : Nat) (k : Cluster) : (setCluster c k s).safe = s.safe := rfl
@[simp] theorem setCluster_ids (c : Nat) (k : Cluster) : (setCluster c k s).ids = s.ids := rfl
@[simp] theorem setCluster_flash (c : Nat) (k : Cluster) : (setCluster c k s).flash = s.flash := rfl
@[simp] theorem setCluster_map (c : Nat) (k : Cluster) : (setCluster c k s).map = s.map := rfl
@[simp] theorem setCluster_logs (c : Nat) (k : Cluster) : (setCluster c k s).logs = s.logs := rfl
@[simp] theorem setCluster_decl (c : Nat) (k : Cluster) : (setCluster c k s).decl = s.decl := rfl
@[simp] theorem setCluster_resident (c : Nat) (k : Cluster) : (setCluster c k s).resident = s.resident := rfl
@[simp] theorem setCluster_image (c : Nat) (k : Cluster) : (setCluster c k s).image = s.image := rfl
@[simp] theorem setCluster_runBlk (c : Nat) (k : Cluster) : (setCluster c k s).runBlk = s.runBlk := rfl
@[simp] theorem setCluster_weir (c : Nat) (k : Cluster) : (setCluster c k s).weir = s.weir := rfl
@[simp] theorem setCluster_wires (c : Nat) (k : Cluster) : (setCluster c k s).wires = s.wires := rfl
@[simp] theorem setCluster_gates (c : Nat) (k : Cluster) : (setCluster c k s).gates = s.gates := rfl
@[simp] theorem setCluster_ports (c : Nat) (k : Cluster) : (setCluster c k s).ports = s.ports := rfl
@[simp] theorem setCluster_rings (c : Nat) (k : Cluster) : (setCluster c k s).rings = s.rings := rfl
@[simp] theorem setCluster_sluices (c : Nat) (k : Cluster) : (setCluster c k s).sluices = s.sluices := rfl
@[simp] theorem setCluster_queues (c : Nat) (k : Cluster) : (setCluster c k s).queues = s.queues := rfl
@[simp] theorem setCluster_seals (c : Nat) (k : Cluster) : (setCluster c k s).seals = s.seals := rfl
@[simp] theorem setCluster_commits (c : Nat) (k : Cluster) : (setCluster c k s).commits = s.commits := rfl
@[simp] theorem setCluster_readIds (c : Nat) (k : Cluster) : (setCluster c k s).readIds = s.readIds := rfl
@[simp] theorem setCluster_stackMem (c : Nat) (k : Cluster) : (setCluster c k s).stackMem = s.stackMem := rfl
@[simp] theorem setCluster_stackUpsets (c : Nat) (k : Cluster) : (setCluster c k s).stackUpsets = s.stackUpsets := rfl
@[simp] theorem setCluster_tier (c : Nat) (k : Cluster) : (setCluster c k s).tier = s.tier := rfl

/-! ## After a change of a cluster -/

@[simp] theorem updCluster_pending (c : Nat) (f : Cluster → Cluster) : (updCluster c f s).pending = s.pending := rfl
@[simp] theorem updCluster_freeCount (c : Nat) (f : Cluster → Cluster) : (updCluster c f s).freeCount = s.freeCount := rfl
@[simp] theorem updCluster_lc (c : Nat) (f : Cluster → Cluster) : (updCluster c f s).lc = s.lc := rfl
@[simp] theorem updCluster_lastRelease (c : Nat) (f : Cluster → Cluster) : (updCluster c f s).lastRelease = s.lastRelease := rfl
@[simp] theorem updCluster_power (c : Nat) (f : Cluster → Cluster) : (updCluster c f s).power = s.power := rfl
@[simp] theorem updCluster_heat (c : Nat) (f : Cluster → Cluster) : (updCluster c f s).heat = s.heat := rfl
@[simp] theorem updCluster_hall (c : Nat) (f : Cluster → Cluster) : (updCluster c f s).hall = s.hall := rfl
@[simp] theorem updCluster_dev (c : Nat) (f : Cluster → Cluster) : (updCluster c f s).dev = s.dev := rfl
@[simp] theorem updCluster_mbx (c : Nat) (f : Cluster → Cluster) : (updCluster c f s).mbx = s.mbx := rfl
@[simp] theorem updCluster_cxl (c : Nat) (f : Cluster → Cluster) : (updCluster c f s).cxl = s.cxl := rfl
@[simp] theorem updCluster_safe (c : Nat) (f : Cluster → Cluster) : (updCluster c f s).safe = s.safe := rfl
@[simp] theorem updCluster_ids (c : Nat) (f : Cluster → Cluster) : (updCluster c f s).ids = s.ids := rfl
@[simp] theorem updCluster_flash (c : Nat) (f : Cluster → Cluster) : (updCluster c f s).flash = s.flash := rfl
@[simp] theorem updCluster_map (c : Nat) (f : Cluster → Cluster) : (updCluster c f s).map = s.map := rfl
@[simp] theorem updCluster_logs (c : Nat) (f : Cluster → Cluster) : (updCluster c f s).logs = s.logs := rfl
@[simp] theorem updCluster_decl (c : Nat) (f : Cluster → Cluster) : (updCluster c f s).decl = s.decl := rfl
@[simp] theorem updCluster_resident (c : Nat) (f : Cluster → Cluster) : (updCluster c f s).resident = s.resident := rfl
@[simp] theorem updCluster_image (c : Nat) (f : Cluster → Cluster) : (updCluster c f s).image = s.image := rfl
@[simp] theorem updCluster_runBlk (c : Nat) (f : Cluster → Cluster) : (updCluster c f s).runBlk = s.runBlk := rfl
@[simp] theorem updCluster_weir (c : Nat) (f : Cluster → Cluster) : (updCluster c f s).weir = s.weir := rfl
@[simp] theorem updCluster_wires (c : Nat) (f : Cluster → Cluster) : (updCluster c f s).wires = s.wires := rfl
@[simp] theorem updCluster_gates (c : Nat) (f : Cluster → Cluster) : (updCluster c f s).gates = s.gates := rfl
@[simp] theorem updCluster_ports (c : Nat) (f : Cluster → Cluster) : (updCluster c f s).ports = s.ports := rfl
@[simp] theorem updCluster_rings (c : Nat) (f : Cluster → Cluster) : (updCluster c f s).rings = s.rings := rfl
@[simp] theorem updCluster_sluices (c : Nat) (f : Cluster → Cluster) : (updCluster c f s).sluices = s.sluices := rfl
@[simp] theorem updCluster_queues (c : Nat) (f : Cluster → Cluster) : (updCluster c f s).queues = s.queues := rfl
@[simp] theorem updCluster_seals (c : Nat) (f : Cluster → Cluster) : (updCluster c f s).seals = s.seals := rfl
@[simp] theorem updCluster_commits (c : Nat) (f : Cluster → Cluster) : (updCluster c f s).commits = s.commits := rfl
@[simp] theorem updCluster_readIds (c : Nat) (f : Cluster → Cluster) : (updCluster c f s).readIds = s.readIds := rfl
@[simp] theorem updCluster_stackMem (c : Nat) (f : Cluster → Cluster) : (updCluster c f s).stackMem = s.stackMem := rfl
@[simp] theorem updCluster_stackUpsets (c : Nat) (f : Cluster → Cluster) : (updCluster c f s).stackUpsets = s.stackUpsets := rfl
@[simp] theorem updCluster_tier (c : Nat) (f : Cluster → Cluster) : (updCluster c f s).tier = s.tier := rfl

/-! ## After a port put back -/

@[simp] theorem setPort_pending (p : Nat) (x : Port) : (setPort p x s).pending = s.pending := rfl
@[simp] theorem setPort_freeCount (p : Nat) (x : Port) : (setPort p x s).freeCount = s.freeCount := rfl
@[simp] theorem setPort_lc (p : Nat) (x : Port) : (setPort p x s).lc = s.lc := rfl
@[simp] theorem setPort_lastRelease (p : Nat) (x : Port) : (setPort p x s).lastRelease = s.lastRelease := rfl
@[simp] theorem setPort_power (p : Nat) (x : Port) : (setPort p x s).power = s.power := rfl
@[simp] theorem setPort_heat (p : Nat) (x : Port) : (setPort p x s).heat = s.heat := rfl
@[simp] theorem setPort_hall (p : Nat) (x : Port) : (setPort p x s).hall = s.hall := rfl
@[simp] theorem setPort_dev (p : Nat) (x : Port) : (setPort p x s).dev = s.dev := rfl
@[simp] theorem setPort_mbx (p : Nat) (x : Port) : (setPort p x s).mbx = s.mbx := rfl
@[simp] theorem setPort_cxl (p : Nat) (x : Port) : (setPort p x s).cxl = s.cxl := rfl
@[simp] theorem setPort_safe (p : Nat) (x : Port) : (setPort p x s).safe = s.safe := rfl
@[simp] theorem setPort_ids (p : Nat) (x : Port) : (setPort p x s).ids = s.ids := rfl
@[simp] theorem setPort_flash (p : Nat) (x : Port) : (setPort p x s).flash = s.flash := rfl
@[simp] theorem setPort_map (p : Nat) (x : Port) : (setPort p x s).map = s.map := rfl
@[simp] theorem setPort_logs (p : Nat) (x : Port) : (setPort p x s).logs = s.logs := rfl
@[simp] theorem setPort_decl (p : Nat) (x : Port) : (setPort p x s).decl = s.decl := rfl
@[simp] theorem setPort_resident (p : Nat) (x : Port) : (setPort p x s).resident = s.resident := rfl
@[simp] theorem setPort_image (p : Nat) (x : Port) : (setPort p x s).image = s.image := rfl
@[simp] theorem setPort_runBlk (p : Nat) (x : Port) : (setPort p x s).runBlk = s.runBlk := rfl
@[simp] theorem setPort_weir (p : Nat) (x : Port) : (setPort p x s).weir = s.weir := rfl
@[simp] theorem setPort_clusters (p : Nat) (x : Port) : (setPort p x s).clusters = s.clusters := rfl
@[simp] theorem setPort_wires (p : Nat) (x : Port) : (setPort p x s).wires = s.wires := rfl
@[simp] theorem setPort_gates (p : Nat) (x : Port) : (setPort p x s).gates = s.gates := rfl
@[simp] theorem setPort_rings (p : Nat) (x : Port) : (setPort p x s).rings = s.rings := rfl
@[simp] theorem setPort_sluices (p : Nat) (x : Port) : (setPort p x s).sluices = s.sluices := rfl
@[simp] theorem setPort_queues (p : Nat) (x : Port) : (setPort p x s).queues = s.queues := rfl
@[simp] theorem setPort_seals (p : Nat) (x : Port) : (setPort p x s).seals = s.seals := rfl
@[simp] theorem setPort_commits (p : Nat) (x : Port) : (setPort p x s).commits = s.commits := rfl
@[simp] theorem setPort_readIds (p : Nat) (x : Port) : (setPort p x s).readIds = s.readIds := rfl
@[simp] theorem setPort_stackMem (p : Nat) (x : Port) : (setPort p x s).stackMem = s.stackMem := rfl
@[simp] theorem setPort_stackUpsets (p : Nat) (x : Port) : (setPort p x s).stackUpsets = s.stackUpsets := rfl
@[simp] theorem setPort_tier (p : Nat) (x : Port) : (setPort p x s).tier = s.tier := rfl

/-! ## After a change of a port -/

@[simp] theorem updPort_pending (p : Nat) (f : Port → Port) : (updPort p f s).pending = s.pending := rfl
@[simp] theorem updPort_freeCount (p : Nat) (f : Port → Port) : (updPort p f s).freeCount = s.freeCount := rfl
@[simp] theorem updPort_lc (p : Nat) (f : Port → Port) : (updPort p f s).lc = s.lc := rfl
@[simp] theorem updPort_lastRelease (p : Nat) (f : Port → Port) : (updPort p f s).lastRelease = s.lastRelease := rfl
@[simp] theorem updPort_power (p : Nat) (f : Port → Port) : (updPort p f s).power = s.power := rfl
@[simp] theorem updPort_heat (p : Nat) (f : Port → Port) : (updPort p f s).heat = s.heat := rfl
@[simp] theorem updPort_hall (p : Nat) (f : Port → Port) : (updPort p f s).hall = s.hall := rfl
@[simp] theorem updPort_dev (p : Nat) (f : Port → Port) : (updPort p f s).dev = s.dev := rfl
@[simp] theorem updPort_mbx (p : Nat) (f : Port → Port) : (updPort p f s).mbx = s.mbx := rfl
@[simp] theorem updPort_cxl (p : Nat) (f : Port → Port) : (updPort p f s).cxl = s.cxl := rfl
@[simp] theorem updPort_safe (p : Nat) (f : Port → Port) : (updPort p f s).safe = s.safe := rfl
@[simp] theorem updPort_ids (p : Nat) (f : Port → Port) : (updPort p f s).ids = s.ids := rfl
@[simp] theorem updPort_flash (p : Nat) (f : Port → Port) : (updPort p f s).flash = s.flash := rfl
@[simp] theorem updPort_map (p : Nat) (f : Port → Port) : (updPort p f s).map = s.map := rfl
@[simp] theorem updPort_logs (p : Nat) (f : Port → Port) : (updPort p f s).logs = s.logs := rfl
@[simp] theorem updPort_decl (p : Nat) (f : Port → Port) : (updPort p f s).decl = s.decl := rfl
@[simp] theorem updPort_resident (p : Nat) (f : Port → Port) : (updPort p f s).resident = s.resident := rfl
@[simp] theorem updPort_image (p : Nat) (f : Port → Port) : (updPort p f s).image = s.image := rfl
@[simp] theorem updPort_runBlk (p : Nat) (f : Port → Port) : (updPort p f s).runBlk = s.runBlk := rfl
@[simp] theorem updPort_weir (p : Nat) (f : Port → Port) : (updPort p f s).weir = s.weir := rfl
@[simp] theorem updPort_clusters (p : Nat) (f : Port → Port) : (updPort p f s).clusters = s.clusters := rfl
@[simp] theorem updPort_wires (p : Nat) (f : Port → Port) : (updPort p f s).wires = s.wires := rfl
@[simp] theorem updPort_gates (p : Nat) (f : Port → Port) : (updPort p f s).gates = s.gates := rfl
@[simp] theorem updPort_rings (p : Nat) (f : Port → Port) : (updPort p f s).rings = s.rings := rfl
@[simp] theorem updPort_sluices (p : Nat) (f : Port → Port) : (updPort p f s).sluices = s.sluices := rfl
@[simp] theorem updPort_queues (p : Nat) (f : Port → Port) : (updPort p f s).queues = s.queues := rfl
@[simp] theorem updPort_seals (p : Nat) (f : Port → Port) : (updPort p f s).seals = s.seals := rfl
@[simp] theorem updPort_commits (p : Nat) (f : Port → Port) : (updPort p f s).commits = s.commits := rfl
@[simp] theorem updPort_readIds (p : Nat) (f : Port → Port) : (updPort p f s).readIds = s.readIds := rfl
@[simp] theorem updPort_stackMem (p : Nat) (f : Port → Port) : (updPort p f s).stackMem = s.stackMem := rfl
@[simp] theorem updPort_stackUpsets (p : Nat) (f : Port → Port) : (updPort p f s).stackUpsets = s.stackUpsets := rfl
@[simp] theorem updPort_tier (p : Nat) (f : Port → Port) : (updPort p f s).tier = s.tier := rfl

/-! ## After a change of a ring die -/

@[simp] theorem updRing_pending (d : Nat) (f : Ring → Ring) : (updRing d f s).pending = s.pending := rfl
@[simp] theorem updRing_freeCount (d : Nat) (f : Ring → Ring) : (updRing d f s).freeCount = s.freeCount := rfl
@[simp] theorem updRing_lc (d : Nat) (f : Ring → Ring) : (updRing d f s).lc = s.lc := rfl
@[simp] theorem updRing_lastRelease (d : Nat) (f : Ring → Ring) : (updRing d f s).lastRelease = s.lastRelease := rfl
@[simp] theorem updRing_power (d : Nat) (f : Ring → Ring) : (updRing d f s).power = s.power := rfl
@[simp] theorem updRing_heat (d : Nat) (f : Ring → Ring) : (updRing d f s).heat = s.heat := rfl
@[simp] theorem updRing_hall (d : Nat) (f : Ring → Ring) : (updRing d f s).hall = s.hall := rfl
@[simp] theorem updRing_dev (d : Nat) (f : Ring → Ring) : (updRing d f s).dev = s.dev := rfl
@[simp] theorem updRing_mbx (d : Nat) (f : Ring → Ring) : (updRing d f s).mbx = s.mbx := rfl
@[simp] theorem updRing_cxl (d : Nat) (f : Ring → Ring) : (updRing d f s).cxl = s.cxl := rfl
@[simp] theorem updRing_safe (d : Nat) (f : Ring → Ring) : (updRing d f s).safe = s.safe := rfl
@[simp] theorem updRing_ids (d : Nat) (f : Ring → Ring) : (updRing d f s).ids = s.ids := rfl
@[simp] theorem updRing_flash (d : Nat) (f : Ring → Ring) : (updRing d f s).flash = s.flash := rfl
@[simp] theorem updRing_map (d : Nat) (f : Ring → Ring) : (updRing d f s).map = s.map := rfl
@[simp] theorem updRing_logs (d : Nat) (f : Ring → Ring) : (updRing d f s).logs = s.logs := rfl
@[simp] theorem updRing_decl (d : Nat) (f : Ring → Ring) : (updRing d f s).decl = s.decl := rfl
@[simp] theorem updRing_resident (d : Nat) (f : Ring → Ring) : (updRing d f s).resident = s.resident := rfl
@[simp] theorem updRing_image (d : Nat) (f : Ring → Ring) : (updRing d f s).image = s.image := rfl
@[simp] theorem updRing_runBlk (d : Nat) (f : Ring → Ring) : (updRing d f s).runBlk = s.runBlk := rfl
@[simp] theorem updRing_weir (d : Nat) (f : Ring → Ring) : (updRing d f s).weir = s.weir := rfl
@[simp] theorem updRing_clusters (d : Nat) (f : Ring → Ring) : (updRing d f s).clusters = s.clusters := rfl
@[simp] theorem updRing_wires (d : Nat) (f : Ring → Ring) : (updRing d f s).wires = s.wires := rfl
@[simp] theorem updRing_gates (d : Nat) (f : Ring → Ring) : (updRing d f s).gates = s.gates := rfl
@[simp] theorem updRing_ports (d : Nat) (f : Ring → Ring) : (updRing d f s).ports = s.ports := rfl
@[simp] theorem updRing_sluices (d : Nat) (f : Ring → Ring) : (updRing d f s).sluices = s.sluices := rfl
@[simp] theorem updRing_queues (d : Nat) (f : Ring → Ring) : (updRing d f s).queues = s.queues := rfl
@[simp] theorem updRing_seals (d : Nat) (f : Ring → Ring) : (updRing d f s).seals = s.seals := rfl
@[simp] theorem updRing_commits (d : Nat) (f : Ring → Ring) : (updRing d f s).commits = s.commits := rfl
@[simp] theorem updRing_readIds (d : Nat) (f : Ring → Ring) : (updRing d f s).readIds = s.readIds := rfl
@[simp] theorem updRing_stackMem (d : Nat) (f : Ring → Ring) : (updRing d f s).stackMem = s.stackMem := rfl
@[simp] theorem updRing_stackUpsets (d : Nat) (f : Ring → Ring) : (updRing d f s).stackUpsets = s.stackUpsets := rfl
@[simp] theorem updRing_tier (d : Nat) (f : Ring → Ring) : (updRing d f s).tier = s.tier := rfl

/-! ## After a change of a sluice -/

@[simp] theorem updSluice_pending (k : Nat) (f : Sluice → Sluice) : (updSluice k f s).pending = s.pending := rfl
@[simp] theorem updSluice_freeCount (k : Nat) (f : Sluice → Sluice) : (updSluice k f s).freeCount = s.freeCount := rfl
@[simp] theorem updSluice_lc (k : Nat) (f : Sluice → Sluice) : (updSluice k f s).lc = s.lc := rfl
@[simp] theorem updSluice_lastRelease (k : Nat) (f : Sluice → Sluice) : (updSluice k f s).lastRelease = s.lastRelease := rfl
@[simp] theorem updSluice_power (k : Nat) (f : Sluice → Sluice) : (updSluice k f s).power = s.power := rfl
@[simp] theorem updSluice_heat (k : Nat) (f : Sluice → Sluice) : (updSluice k f s).heat = s.heat := rfl
@[simp] theorem updSluice_hall (k : Nat) (f : Sluice → Sluice) : (updSluice k f s).hall = s.hall := rfl
@[simp] theorem updSluice_dev (k : Nat) (f : Sluice → Sluice) : (updSluice k f s).dev = s.dev := rfl
@[simp] theorem updSluice_mbx (k : Nat) (f : Sluice → Sluice) : (updSluice k f s).mbx = s.mbx := rfl
@[simp] theorem updSluice_cxl (k : Nat) (f : Sluice → Sluice) : (updSluice k f s).cxl = s.cxl := rfl
@[simp] theorem updSluice_safe (k : Nat) (f : Sluice → Sluice) : (updSluice k f s).safe = s.safe := rfl
@[simp] theorem updSluice_ids (k : Nat) (f : Sluice → Sluice) : (updSluice k f s).ids = s.ids := rfl
@[simp] theorem updSluice_flash (k : Nat) (f : Sluice → Sluice) : (updSluice k f s).flash = s.flash := rfl
@[simp] theorem updSluice_map (k : Nat) (f : Sluice → Sluice) : (updSluice k f s).map = s.map := rfl
@[simp] theorem updSluice_logs (k : Nat) (f : Sluice → Sluice) : (updSluice k f s).logs = s.logs := rfl
@[simp] theorem updSluice_decl (k : Nat) (f : Sluice → Sluice) : (updSluice k f s).decl = s.decl := rfl
@[simp] theorem updSluice_resident (k : Nat) (f : Sluice → Sluice) : (updSluice k f s).resident = s.resident := rfl
@[simp] theorem updSluice_image (k : Nat) (f : Sluice → Sluice) : (updSluice k f s).image = s.image := rfl
@[simp] theorem updSluice_runBlk (k : Nat) (f : Sluice → Sluice) : (updSluice k f s).runBlk = s.runBlk := rfl
@[simp] theorem updSluice_weir (k : Nat) (f : Sluice → Sluice) : (updSluice k f s).weir = s.weir := rfl
@[simp] theorem updSluice_clusters (k : Nat) (f : Sluice → Sluice) : (updSluice k f s).clusters = s.clusters := rfl
@[simp] theorem updSluice_wires (k : Nat) (f : Sluice → Sluice) : (updSluice k f s).wires = s.wires := rfl
@[simp] theorem updSluice_gates (k : Nat) (f : Sluice → Sluice) : (updSluice k f s).gates = s.gates := rfl
@[simp] theorem updSluice_ports (k : Nat) (f : Sluice → Sluice) : (updSluice k f s).ports = s.ports := rfl
@[simp] theorem updSluice_rings (k : Nat) (f : Sluice → Sluice) : (updSluice k f s).rings = s.rings := rfl
@[simp] theorem updSluice_queues (k : Nat) (f : Sluice → Sluice) : (updSluice k f s).queues = s.queues := rfl
@[simp] theorem updSluice_seals (k : Nat) (f : Sluice → Sluice) : (updSluice k f s).seals = s.seals := rfl
@[simp] theorem updSluice_commits (k : Nat) (f : Sluice → Sluice) : (updSluice k f s).commits = s.commits := rfl
@[simp] theorem updSluice_readIds (k : Nat) (f : Sluice → Sluice) : (updSluice k f s).readIds = s.readIds := rfl
@[simp] theorem updSluice_stackMem (k : Nat) (f : Sluice → Sluice) : (updSluice k f s).stackMem = s.stackMem := rfl
@[simp] theorem updSluice_stackUpsets (k : Nat) (f : Sluice → Sluice) : (updSluice k f s).stackUpsets = s.stackUpsets := rfl
@[simp] theorem updSluice_tier (k : Nat) (f : Sluice → Sluice) : (updSluice k f s).tier = s.tier := rfl

/-! ## After a change of a queue -/

@[simp] theorem updQueue_pending (q : Nat) (f : Queue → Queue) : (updQueue q f s).pending = s.pending := rfl
@[simp] theorem updQueue_freeCount (q : Nat) (f : Queue → Queue) : (updQueue q f s).freeCount = s.freeCount := rfl
@[simp] theorem updQueue_lc (q : Nat) (f : Queue → Queue) : (updQueue q f s).lc = s.lc := rfl
@[simp] theorem updQueue_lastRelease (q : Nat) (f : Queue → Queue) : (updQueue q f s).lastRelease = s.lastRelease := rfl
@[simp] theorem updQueue_power (q : Nat) (f : Queue → Queue) : (updQueue q f s).power = s.power := rfl
@[simp] theorem updQueue_heat (q : Nat) (f : Queue → Queue) : (updQueue q f s).heat = s.heat := rfl
@[simp] theorem updQueue_hall (q : Nat) (f : Queue → Queue) : (updQueue q f s).hall = s.hall := rfl
@[simp] theorem updQueue_dev (q : Nat) (f : Queue → Queue) : (updQueue q f s).dev = s.dev := rfl
@[simp] theorem updQueue_mbx (q : Nat) (f : Queue → Queue) : (updQueue q f s).mbx = s.mbx := rfl
@[simp] theorem updQueue_cxl (q : Nat) (f : Queue → Queue) : (updQueue q f s).cxl = s.cxl := rfl
@[simp] theorem updQueue_safe (q : Nat) (f : Queue → Queue) : (updQueue q f s).safe = s.safe := rfl
@[simp] theorem updQueue_ids (q : Nat) (f : Queue → Queue) : (updQueue q f s).ids = s.ids := rfl
@[simp] theorem updQueue_flash (q : Nat) (f : Queue → Queue) : (updQueue q f s).flash = s.flash := rfl
@[simp] theorem updQueue_map (q : Nat) (f : Queue → Queue) : (updQueue q f s).map = s.map := rfl
@[simp] theorem updQueue_logs (q : Nat) (f : Queue → Queue) : (updQueue q f s).logs = s.logs := rfl
@[simp] theorem updQueue_decl (q : Nat) (f : Queue → Queue) : (updQueue q f s).decl = s.decl := rfl
@[simp] theorem updQueue_resident (q : Nat) (f : Queue → Queue) : (updQueue q f s).resident = s.resident := rfl
@[simp] theorem updQueue_image (q : Nat) (f : Queue → Queue) : (updQueue q f s).image = s.image := rfl
@[simp] theorem updQueue_runBlk (q : Nat) (f : Queue → Queue) : (updQueue q f s).runBlk = s.runBlk := rfl
@[simp] theorem updQueue_weir (q : Nat) (f : Queue → Queue) : (updQueue q f s).weir = s.weir := rfl
@[simp] theorem updQueue_clusters (q : Nat) (f : Queue → Queue) : (updQueue q f s).clusters = s.clusters := rfl
@[simp] theorem updQueue_wires (q : Nat) (f : Queue → Queue) : (updQueue q f s).wires = s.wires := rfl
@[simp] theorem updQueue_gates (q : Nat) (f : Queue → Queue) : (updQueue q f s).gates = s.gates := rfl
@[simp] theorem updQueue_ports (q : Nat) (f : Queue → Queue) : (updQueue q f s).ports = s.ports := rfl
@[simp] theorem updQueue_rings (q : Nat) (f : Queue → Queue) : (updQueue q f s).rings = s.rings := rfl
@[simp] theorem updQueue_sluices (q : Nat) (f : Queue → Queue) : (updQueue q f s).sluices = s.sluices := rfl
@[simp] theorem updQueue_seals (q : Nat) (f : Queue → Queue) : (updQueue q f s).seals = s.seals := rfl
@[simp] theorem updQueue_commits (q : Nat) (f : Queue → Queue) : (updQueue q f s).commits = s.commits := rfl
@[simp] theorem updQueue_readIds (q : Nat) (f : Queue → Queue) : (updQueue q f s).readIds = s.readIds := rfl
@[simp] theorem updQueue_stackMem (q : Nat) (f : Queue → Queue) : (updQueue q f s).stackMem = s.stackMem := rfl
@[simp] theorem updQueue_stackUpsets (q : Nat) (f : Queue → Queue) : (updQueue q f s).stackUpsets = s.stackUpsets := rfl
@[simp] theorem updQueue_tier (q : Nat) (f : Queue → Queue) : (updQueue q f s).tier = s.tier := rfl

/-! ## After a message on an MSI-X vector -/

@[simp] theorem raiseMsix_pending (v : Nat) : (raiseMsix v s).pending = s.pending := rfl
@[simp] theorem raiseMsix_freeCount (v : Nat) : (raiseMsix v s).freeCount = s.freeCount := rfl
@[simp] theorem raiseMsix_lc (v : Nat) : (raiseMsix v s).lc = s.lc := rfl
@[simp] theorem raiseMsix_lastRelease (v : Nat) : (raiseMsix v s).lastRelease = s.lastRelease := rfl
@[simp] theorem raiseMsix_power (v : Nat) : (raiseMsix v s).power = s.power := rfl
@[simp] theorem raiseMsix_heat (v : Nat) : (raiseMsix v s).heat = s.heat := rfl
@[simp] theorem raiseMsix_hall (v : Nat) : (raiseMsix v s).hall = s.hall := rfl
@[simp] theorem raiseMsix_dev (v : Nat) : (raiseMsix v s).dev = s.dev := rfl
@[simp] theorem raiseMsix_mbx (v : Nat) : (raiseMsix v s).mbx = s.mbx := rfl
@[simp] theorem raiseMsix_safe (v : Nat) : (raiseMsix v s).safe = s.safe := rfl
@[simp] theorem raiseMsix_ids (v : Nat) : (raiseMsix v s).ids = s.ids := rfl
@[simp] theorem raiseMsix_flash (v : Nat) : (raiseMsix v s).flash = s.flash := rfl
@[simp] theorem raiseMsix_map (v : Nat) : (raiseMsix v s).map = s.map := rfl
@[simp] theorem raiseMsix_logs (v : Nat) : (raiseMsix v s).logs = s.logs := rfl
@[simp] theorem raiseMsix_decl (v : Nat) : (raiseMsix v s).decl = s.decl := rfl
@[simp] theorem raiseMsix_resident (v : Nat) : (raiseMsix v s).resident = s.resident := rfl
@[simp] theorem raiseMsix_image (v : Nat) : (raiseMsix v s).image = s.image := rfl
@[simp] theorem raiseMsix_runBlk (v : Nat) : (raiseMsix v s).runBlk = s.runBlk := rfl
@[simp] theorem raiseMsix_weir (v : Nat) : (raiseMsix v s).weir = s.weir := rfl
@[simp] theorem raiseMsix_clusters (v : Nat) : (raiseMsix v s).clusters = s.clusters := rfl
@[simp] theorem raiseMsix_wires (v : Nat) : (raiseMsix v s).wires = s.wires := rfl
@[simp] theorem raiseMsix_gates (v : Nat) : (raiseMsix v s).gates = s.gates := rfl
@[simp] theorem raiseMsix_ports (v : Nat) : (raiseMsix v s).ports = s.ports := rfl
@[simp] theorem raiseMsix_rings (v : Nat) : (raiseMsix v s).rings = s.rings := rfl
@[simp] theorem raiseMsix_sluices (v : Nat) : (raiseMsix v s).sluices = s.sluices := rfl
@[simp] theorem raiseMsix_queues (v : Nat) : (raiseMsix v s).queues = s.queues := rfl
@[simp] theorem raiseMsix_seals (v : Nat) : (raiseMsix v s).seals = s.seals := rfl
@[simp] theorem raiseMsix_commits (v : Nat) : (raiseMsix v s).commits = s.commits := rfl
@[simp] theorem raiseMsix_readIds (v : Nat) : (raiseMsix v s).readIds = s.readIds := rfl
@[simp] theorem raiseMsix_stackMem (v : Nat) : (raiseMsix v s).stackMem = s.stackMem := rfl
@[simp] theorem raiseMsix_stackUpsets (v : Nat) : (raiseMsix v s).stackUpsets = s.stackUpsets := rfl
@[simp] theorem raiseMsix_tier (v : Nat) : (raiseMsix v s).tier = s.tier := rfl

/-! ## After a record of the event log -/

@[simp] theorem logEvent_pending (code sev place loc : Nat) (data : Bytes) : (logEvent code sev place loc data s).pending = s.pending := rfl
@[simp] theorem logEvent_freeCount (code sev place loc : Nat) (data : Bytes) : (logEvent code sev place loc data s).freeCount = s.freeCount := rfl
@[simp] theorem logEvent_lc (code sev place loc : Nat) (data : Bytes) : (logEvent code sev place loc data s).lc = s.lc := rfl
@[simp] theorem logEvent_lastRelease (code sev place loc : Nat) (data : Bytes) : (logEvent code sev place loc data s).lastRelease = s.lastRelease := rfl
@[simp] theorem logEvent_power (code sev place loc : Nat) (data : Bytes) : (logEvent code sev place loc data s).power = s.power := rfl
@[simp] theorem logEvent_heat (code sev place loc : Nat) (data : Bytes) : (logEvent code sev place loc data s).heat = s.heat := rfl
@[simp] theorem logEvent_hall (code sev place loc : Nat) (data : Bytes) : (logEvent code sev place loc data s).hall = s.hall := rfl
@[simp] theorem logEvent_dev (code sev place loc : Nat) (data : Bytes) : (logEvent code sev place loc data s).dev = s.dev := rfl
@[simp] theorem logEvent_mbx (code sev place loc : Nat) (data : Bytes) : (logEvent code sev place loc data s).mbx = s.mbx := rfl
@[simp] theorem logEvent_cxl (code sev place loc : Nat) (data : Bytes) : (logEvent code sev place loc data s).cxl = s.cxl := rfl
@[simp] theorem logEvent_safe (code sev place loc : Nat) (data : Bytes) : (logEvent code sev place loc data s).safe = s.safe := rfl
@[simp] theorem logEvent_ids (code sev place loc : Nat) (data : Bytes) : (logEvent code sev place loc data s).ids = s.ids := rfl
@[simp] theorem logEvent_flash (code sev place loc : Nat) (data : Bytes) : (logEvent code sev place loc data s).flash = s.flash := rfl
@[simp] theorem logEvent_map (code sev place loc : Nat) (data : Bytes) : (logEvent code sev place loc data s).map = s.map := rfl
@[simp] theorem logEvent_decl (code sev place loc : Nat) (data : Bytes) : (logEvent code sev place loc data s).decl = s.decl := rfl
@[simp] theorem logEvent_resident (code sev place loc : Nat) (data : Bytes) : (logEvent code sev place loc data s).resident = s.resident := rfl
@[simp] theorem logEvent_image (code sev place loc : Nat) (data : Bytes) : (logEvent code sev place loc data s).image = s.image := rfl
@[simp] theorem logEvent_runBlk (code sev place loc : Nat) (data : Bytes) : (logEvent code sev place loc data s).runBlk = s.runBlk := rfl
@[simp] theorem logEvent_weir (code sev place loc : Nat) (data : Bytes) : (logEvent code sev place loc data s).weir = s.weir := rfl
@[simp] theorem logEvent_clusters (code sev place loc : Nat) (data : Bytes) : (logEvent code sev place loc data s).clusters = s.clusters := rfl
@[simp] theorem logEvent_wires (code sev place loc : Nat) (data : Bytes) : (logEvent code sev place loc data s).wires = s.wires := rfl
@[simp] theorem logEvent_gates (code sev place loc : Nat) (data : Bytes) : (logEvent code sev place loc data s).gates = s.gates := rfl
@[simp] theorem logEvent_ports (code sev place loc : Nat) (data : Bytes) : (logEvent code sev place loc data s).ports = s.ports := rfl
@[simp] theorem logEvent_rings (code sev place loc : Nat) (data : Bytes) : (logEvent code sev place loc data s).rings = s.rings := rfl
@[simp] theorem logEvent_sluices (code sev place loc : Nat) (data : Bytes) : (logEvent code sev place loc data s).sluices = s.sluices := rfl
@[simp] theorem logEvent_queues (code sev place loc : Nat) (data : Bytes) : (logEvent code sev place loc data s).queues = s.queues := rfl
@[simp] theorem logEvent_seals (code sev place loc : Nat) (data : Bytes) : (logEvent code sev place loc data s).seals = s.seals := rfl
@[simp] theorem logEvent_commits (code sev place loc : Nat) (data : Bytes) : (logEvent code sev place loc data s).commits = s.commits := rfl
@[simp] theorem logEvent_readIds (code sev place loc : Nat) (data : Bytes) : (logEvent code sev place loc data s).readIds = s.readIds := rfl
@[simp] theorem logEvent_stackMem (code sev place loc : Nat) (data : Bytes) : (logEvent code sev place loc data s).stackMem = s.stackMem := rfl
@[simp] theorem logEvent_stackUpsets (code sev place loc : Nat) (data : Bytes) : (logEvent code sev place loc data s).stackUpsets = s.stackUpsets := rfl
@[simp] theorem logEvent_tier (code sev place loc : Nat) (data : Bytes) : (logEvent code sev place loc data s).tier = s.tier := rfl

/-! ## After an answer in the mailbox -/

@[simp] theorem putAnswer_pending (rc : Nat) (d : DStatus) (check : Nat) (out : Bytes) : (putAnswer rc d check out s).pending = s.pending := rfl
@[simp] theorem putAnswer_freeCount (rc : Nat) (d : DStatus) (check : Nat) (out : Bytes) : (putAnswer rc d check out s).freeCount = s.freeCount := rfl
@[simp] theorem putAnswer_lc (rc : Nat) (d : DStatus) (check : Nat) (out : Bytes) : (putAnswer rc d check out s).lc = s.lc := rfl
@[simp] theorem putAnswer_lastRelease (rc : Nat) (d : DStatus) (check : Nat) (out : Bytes) : (putAnswer rc d check out s).lastRelease = s.lastRelease := rfl
@[simp] theorem putAnswer_power (rc : Nat) (d : DStatus) (check : Nat) (out : Bytes) : (putAnswer rc d check out s).power = s.power := rfl
@[simp] theorem putAnswer_heat (rc : Nat) (d : DStatus) (check : Nat) (out : Bytes) : (putAnswer rc d check out s).heat = s.heat := rfl
@[simp] theorem putAnswer_hall (rc : Nat) (d : DStatus) (check : Nat) (out : Bytes) : (putAnswer rc d check out s).hall = s.hall := rfl
@[simp] theorem putAnswer_dev (rc : Nat) (d : DStatus) (check : Nat) (out : Bytes) : (putAnswer rc d check out s).dev = s.dev := rfl
@[simp] theorem putAnswer_safe (rc : Nat) (d : DStatus) (check : Nat) (out : Bytes) : (putAnswer rc d check out s).safe = s.safe := rfl
@[simp] theorem putAnswer_ids (rc : Nat) (d : DStatus) (check : Nat) (out : Bytes) : (putAnswer rc d check out s).ids = s.ids := rfl
@[simp] theorem putAnswer_flash (rc : Nat) (d : DStatus) (check : Nat) (out : Bytes) : (putAnswer rc d check out s).flash = s.flash := rfl
@[simp] theorem putAnswer_map (rc : Nat) (d : DStatus) (check : Nat) (out : Bytes) : (putAnswer rc d check out s).map = s.map := rfl
@[simp] theorem putAnswer_logs (rc : Nat) (d : DStatus) (check : Nat) (out : Bytes) : (putAnswer rc d check out s).logs = s.logs := rfl
@[simp] theorem putAnswer_decl (rc : Nat) (d : DStatus) (check : Nat) (out : Bytes) : (putAnswer rc d check out s).decl = s.decl := rfl
@[simp] theorem putAnswer_resident (rc : Nat) (d : DStatus) (check : Nat) (out : Bytes) : (putAnswer rc d check out s).resident = s.resident := rfl
@[simp] theorem putAnswer_image (rc : Nat) (d : DStatus) (check : Nat) (out : Bytes) : (putAnswer rc d check out s).image = s.image := rfl
@[simp] theorem putAnswer_runBlk (rc : Nat) (d : DStatus) (check : Nat) (out : Bytes) : (putAnswer rc d check out s).runBlk = s.runBlk := rfl
@[simp] theorem putAnswer_weir (rc : Nat) (d : DStatus) (check : Nat) (out : Bytes) : (putAnswer rc d check out s).weir = s.weir := rfl
@[simp] theorem putAnswer_clusters (rc : Nat) (d : DStatus) (check : Nat) (out : Bytes) : (putAnswer rc d check out s).clusters = s.clusters := rfl
@[simp] theorem putAnswer_wires (rc : Nat) (d : DStatus) (check : Nat) (out : Bytes) : (putAnswer rc d check out s).wires = s.wires := rfl
@[simp] theorem putAnswer_gates (rc : Nat) (d : DStatus) (check : Nat) (out : Bytes) : (putAnswer rc d check out s).gates = s.gates := rfl
@[simp] theorem putAnswer_ports (rc : Nat) (d : DStatus) (check : Nat) (out : Bytes) : (putAnswer rc d check out s).ports = s.ports := rfl
@[simp] theorem putAnswer_rings (rc : Nat) (d : DStatus) (check : Nat) (out : Bytes) : (putAnswer rc d check out s).rings = s.rings := rfl
@[simp] theorem putAnswer_sluices (rc : Nat) (d : DStatus) (check : Nat) (out : Bytes) : (putAnswer rc d check out s).sluices = s.sluices := rfl
@[simp] theorem putAnswer_queues (rc : Nat) (d : DStatus) (check : Nat) (out : Bytes) : (putAnswer rc d check out s).queues = s.queues := rfl
@[simp] theorem putAnswer_seals (rc : Nat) (d : DStatus) (check : Nat) (out : Bytes) : (putAnswer rc d check out s).seals = s.seals := rfl
@[simp] theorem putAnswer_commits (rc : Nat) (d : DStatus) (check : Nat) (out : Bytes) : (putAnswer rc d check out s).commits = s.commits := rfl
@[simp] theorem putAnswer_readIds (rc : Nat) (d : DStatus) (check : Nat) (out : Bytes) : (putAnswer rc d check out s).readIds = s.readIds := rfl
@[simp] theorem putAnswer_stackMem (rc : Nat) (d : DStatus) (check : Nat) (out : Bytes) : (putAnswer rc d check out s).stackMem = s.stackMem := rfl
@[simp] theorem putAnswer_stackUpsets (rc : Nat) (d : DStatus) (check : Nat) (out : Bytes) : (putAnswer rc d check out s).stackUpsets = s.stackUpsets := rfl
@[simp] theorem putAnswer_tier (rc : Nat) (d : DStatus) (check : Nat) (out : Bytes) : (putAnswer rc d check out s).tier = s.tier := rfl

/-! ## After the end of a background command -/

@[simp] theorem finishBg_pending (r : BgResult) : (finishBg r s).pending = s.pending := rfl
@[simp] theorem finishBg_freeCount (r : BgResult) : (finishBg r s).freeCount = s.freeCount := rfl
@[simp] theorem finishBg_lc (r : BgResult) : (finishBg r s).lc = s.lc := rfl
@[simp] theorem finishBg_lastRelease (r : BgResult) : (finishBg r s).lastRelease = s.lastRelease := rfl
@[simp] theorem finishBg_power (r : BgResult) : (finishBg r s).power = s.power := rfl
@[simp] theorem finishBg_heat (r : BgResult) : (finishBg r s).heat = s.heat := rfl
@[simp] theorem finishBg_hall (r : BgResult) : (finishBg r s).hall = s.hall := rfl
@[simp] theorem finishBg_dev (r : BgResult) : (finishBg r s).dev = s.dev := rfl
@[simp] theorem finishBg_safe (r : BgResult) : (finishBg r s).safe = s.safe := rfl
@[simp] theorem finishBg_ids (r : BgResult) : (finishBg r s).ids = s.ids := rfl
@[simp] theorem finishBg_flash (r : BgResult) : (finishBg r s).flash = s.flash := rfl
@[simp] theorem finishBg_map (r : BgResult) : (finishBg r s).map = s.map := rfl
@[simp] theorem finishBg_logs (r : BgResult) : (finishBg r s).logs = s.logs := rfl
@[simp] theorem finishBg_decl (r : BgResult) : (finishBg r s).decl = s.decl := rfl
@[simp] theorem finishBg_resident (r : BgResult) : (finishBg r s).resident = s.resident := rfl
@[simp] theorem finishBg_image (r : BgResult) : (finishBg r s).image = s.image := rfl
@[simp] theorem finishBg_runBlk (r : BgResult) : (finishBg r s).runBlk = s.runBlk := rfl
@[simp] theorem finishBg_weir (r : BgResult) : (finishBg r s).weir = s.weir := rfl
@[simp] theorem finishBg_clusters (r : BgResult) : (finishBg r s).clusters = s.clusters := rfl
@[simp] theorem finishBg_wires (r : BgResult) : (finishBg r s).wires = s.wires := rfl
@[simp] theorem finishBg_gates (r : BgResult) : (finishBg r s).gates = s.gates := rfl
@[simp] theorem finishBg_ports (r : BgResult) : (finishBg r s).ports = s.ports := rfl
@[simp] theorem finishBg_rings (r : BgResult) : (finishBg r s).rings = s.rings := rfl
@[simp] theorem finishBg_sluices (r : BgResult) : (finishBg r s).sluices = s.sluices := rfl
@[simp] theorem finishBg_queues (r : BgResult) : (finishBg r s).queues = s.queues := rfl
@[simp] theorem finishBg_seals (r : BgResult) : (finishBg r s).seals = s.seals := rfl
@[simp] theorem finishBg_commits (r : BgResult) : (finishBg r s).commits = s.commits := rfl
@[simp] theorem finishBg_readIds (r : BgResult) : (finishBg r s).readIds = s.readIds := rfl
@[simp] theorem finishBg_stackMem (r : BgResult) : (finishBg r s).stackMem = s.stackMem := rfl
@[simp] theorem finishBg_stackUpsets (r : BgResult) : (finishBg r s).stackUpsets = s.stackUpsets := rfl
@[simp] theorem finishBg_tier (r : BgResult) : (finishBg r s).tier = s.tier := rfl

/-! ## After the passing of hall time -/

@[simp] theorem tickHall_pending (div : Nat) : (tickHall div s).pending = s.pending := rfl
@[simp] theorem tickHall_freeCount (div : Nat) : (tickHall div s).freeCount = s.freeCount := rfl
@[simp] theorem tickHall_lc (div : Nat) : (tickHall div s).lc = s.lc := rfl
@[simp] theorem tickHall_lastRelease (div : Nat) : (tickHall div s).lastRelease = s.lastRelease := rfl
@[simp] theorem tickHall_power (div : Nat) : (tickHall div s).power = s.power := rfl
@[simp] theorem tickHall_heat (div : Nat) : (tickHall div s).heat = s.heat := rfl
@[simp] theorem tickHall_dev (div : Nat) : (tickHall div s).dev = s.dev := rfl
@[simp] theorem tickHall_mbx (div : Nat) : (tickHall div s).mbx = s.mbx := rfl
@[simp] theorem tickHall_cxl (div : Nat) : (tickHall div s).cxl = s.cxl := rfl
@[simp] theorem tickHall_safe (div : Nat) : (tickHall div s).safe = s.safe := rfl
@[simp] theorem tickHall_ids (div : Nat) : (tickHall div s).ids = s.ids := rfl
@[simp] theorem tickHall_flash (div : Nat) : (tickHall div s).flash = s.flash := rfl
@[simp] theorem tickHall_map (div : Nat) : (tickHall div s).map = s.map := rfl
@[simp] theorem tickHall_logs (div : Nat) : (tickHall div s).logs = s.logs := rfl
@[simp] theorem tickHall_decl (div : Nat) : (tickHall div s).decl = s.decl := rfl
@[simp] theorem tickHall_resident (div : Nat) : (tickHall div s).resident = s.resident := rfl
@[simp] theorem tickHall_image (div : Nat) : (tickHall div s).image = s.image := rfl
@[simp] theorem tickHall_runBlk (div : Nat) : (tickHall div s).runBlk = s.runBlk := rfl
@[simp] theorem tickHall_weir (div : Nat) : (tickHall div s).weir = s.weir := rfl
@[simp] theorem tickHall_clusters (div : Nat) : (tickHall div s).clusters = s.clusters := rfl
@[simp] theorem tickHall_wires (div : Nat) : (tickHall div s).wires = s.wires := rfl
@[simp] theorem tickHall_gates (div : Nat) : (tickHall div s).gates = s.gates := rfl
@[simp] theorem tickHall_ports (div : Nat) : (tickHall div s).ports = s.ports := rfl
@[simp] theorem tickHall_rings (div : Nat) : (tickHall div s).rings = s.rings := rfl
@[simp] theorem tickHall_sluices (div : Nat) : (tickHall div s).sluices = s.sluices := rfl
@[simp] theorem tickHall_queues (div : Nat) : (tickHall div s).queues = s.queues := rfl
@[simp] theorem tickHall_seals (div : Nat) : (tickHall div s).seals = s.seals := rfl
@[simp] theorem tickHall_commits (div : Nat) : (tickHall div s).commits = s.commits := rfl
@[simp] theorem tickHall_readIds (div : Nat) : (tickHall div s).readIds = s.readIds := rfl
@[simp] theorem tickHall_stackMem (div : Nat) : (tickHall div s).stackMem = s.stackMem := rfl
@[simp] theorem tickHall_stackUpsets (div : Nat) : (tickHall div s).stackUpsets = s.stackUpsets := rfl
@[simp] theorem tickHall_tier (div : Nat) : (tickHall div s).tier = s.tier := rfl

/-! ## After a change of the weir controller -/

@[simp] theorem updWeir_pending (f : WeirCtl → WeirCtl) : (updWeir f s).pending = s.pending := rfl
@[simp] theorem updWeir_freeCount (f : WeirCtl → WeirCtl) : (updWeir f s).freeCount = s.freeCount := rfl
@[simp] theorem updWeir_lc (f : WeirCtl → WeirCtl) : (updWeir f s).lc = s.lc := rfl
@[simp] theorem updWeir_lastRelease (f : WeirCtl → WeirCtl) : (updWeir f s).lastRelease = s.lastRelease := rfl
@[simp] theorem updWeir_power (f : WeirCtl → WeirCtl) : (updWeir f s).power = s.power := rfl
@[simp] theorem updWeir_heat (f : WeirCtl → WeirCtl) : (updWeir f s).heat = s.heat := rfl
@[simp] theorem updWeir_hall (f : WeirCtl → WeirCtl) : (updWeir f s).hall = s.hall := rfl
@[simp] theorem updWeir_dev (f : WeirCtl → WeirCtl) : (updWeir f s).dev = s.dev := rfl
@[simp] theorem updWeir_mbx (f : WeirCtl → WeirCtl) : (updWeir f s).mbx = s.mbx := rfl
@[simp] theorem updWeir_cxl (f : WeirCtl → WeirCtl) : (updWeir f s).cxl = s.cxl := rfl
@[simp] theorem updWeir_safe (f : WeirCtl → WeirCtl) : (updWeir f s).safe = s.safe := rfl
@[simp] theorem updWeir_ids (f : WeirCtl → WeirCtl) : (updWeir f s).ids = s.ids := rfl
@[simp] theorem updWeir_flash (f : WeirCtl → WeirCtl) : (updWeir f s).flash = s.flash := rfl
@[simp] theorem updWeir_map (f : WeirCtl → WeirCtl) : (updWeir f s).map = s.map := rfl
@[simp] theorem updWeir_logs (f : WeirCtl → WeirCtl) : (updWeir f s).logs = s.logs := rfl
@[simp] theorem updWeir_decl (f : WeirCtl → WeirCtl) : (updWeir f s).decl = s.decl := rfl
@[simp] theorem updWeir_resident (f : WeirCtl → WeirCtl) : (updWeir f s).resident = s.resident := rfl
@[simp] theorem updWeir_image (f : WeirCtl → WeirCtl) : (updWeir f s).image = s.image := rfl
@[simp] theorem updWeir_runBlk (f : WeirCtl → WeirCtl) : (updWeir f s).runBlk = s.runBlk := rfl
@[simp] theorem updWeir_clusters (f : WeirCtl → WeirCtl) : (updWeir f s).clusters = s.clusters := rfl
@[simp] theorem updWeir_wires (f : WeirCtl → WeirCtl) : (updWeir f s).wires = s.wires := rfl
@[simp] theorem updWeir_gates (f : WeirCtl → WeirCtl) : (updWeir f s).gates = s.gates := rfl
@[simp] theorem updWeir_ports (f : WeirCtl → WeirCtl) : (updWeir f s).ports = s.ports := rfl
@[simp] theorem updWeir_rings (f : WeirCtl → WeirCtl) : (updWeir f s).rings = s.rings := rfl
@[simp] theorem updWeir_sluices (f : WeirCtl → WeirCtl) : (updWeir f s).sluices = s.sluices := rfl
@[simp] theorem updWeir_queues (f : WeirCtl → WeirCtl) : (updWeir f s).queues = s.queues := rfl
@[simp] theorem updWeir_seals (f : WeirCtl → WeirCtl) : (updWeir f s).seals = s.seals := rfl
@[simp] theorem updWeir_commits (f : WeirCtl → WeirCtl) : (updWeir f s).commits = s.commits := rfl
@[simp] theorem updWeir_readIds (f : WeirCtl → WeirCtl) : (updWeir f s).readIds = s.readIds := rfl
@[simp] theorem updWeir_stackMem (f : WeirCtl → WeirCtl) : (updWeir f s).stackMem = s.stackMem := rfl
@[simp] theorem updWeir_stackUpsets (f : WeirCtl → WeirCtl) : (updWeir f s).stackUpsets = s.stackUpsets := rfl
@[simp] theorem updWeir_tier (f : WeirCtl → WeirCtl) : (updWeir f s).tier = s.tier := rfl

/-! ## After a change of a tier-map entry -/

@[simp] theorem updMap_pending (u : Nat) (f : MapEntry → MapEntry) : (updMap u f s).pending = s.pending := rfl
@[simp] theorem updMap_freeCount (u : Nat) (f : MapEntry → MapEntry) : (updMap u f s).freeCount = s.freeCount := rfl
@[simp] theorem updMap_lc (u : Nat) (f : MapEntry → MapEntry) : (updMap u f s).lc = s.lc := rfl
@[simp] theorem updMap_lastRelease (u : Nat) (f : MapEntry → MapEntry) : (updMap u f s).lastRelease = s.lastRelease := rfl
@[simp] theorem updMap_power (u : Nat) (f : MapEntry → MapEntry) : (updMap u f s).power = s.power := rfl
@[simp] theorem updMap_heat (u : Nat) (f : MapEntry → MapEntry) : (updMap u f s).heat = s.heat := rfl
@[simp] theorem updMap_hall (u : Nat) (f : MapEntry → MapEntry) : (updMap u f s).hall = s.hall := rfl
@[simp] theorem updMap_dev (u : Nat) (f : MapEntry → MapEntry) : (updMap u f s).dev = s.dev := rfl
@[simp] theorem updMap_mbx (u : Nat) (f : MapEntry → MapEntry) : (updMap u f s).mbx = s.mbx := rfl
@[simp] theorem updMap_cxl (u : Nat) (f : MapEntry → MapEntry) : (updMap u f s).cxl = s.cxl := rfl
@[simp] theorem updMap_safe (u : Nat) (f : MapEntry → MapEntry) : (updMap u f s).safe = s.safe := rfl
@[simp] theorem updMap_ids (u : Nat) (f : MapEntry → MapEntry) : (updMap u f s).ids = s.ids := rfl
@[simp] theorem updMap_flash (u : Nat) (f : MapEntry → MapEntry) : (updMap u f s).flash = s.flash := rfl
@[simp] theorem updMap_map (u : Nat) (f : MapEntry → MapEntry) : (updMap u f s).map = s.map := rfl
@[simp] theorem updMap_logs (u : Nat) (f : MapEntry → MapEntry) : (updMap u f s).logs = s.logs := rfl
@[simp] theorem updMap_decl (u : Nat) (f : MapEntry → MapEntry) : (updMap u f s).decl = s.decl := rfl
@[simp] theorem updMap_resident (u : Nat) (f : MapEntry → MapEntry) : (updMap u f s).resident = s.resident := rfl
@[simp] theorem updMap_image (u : Nat) (f : MapEntry → MapEntry) : (updMap u f s).image = s.image := rfl
@[simp] theorem updMap_runBlk (u : Nat) (f : MapEntry → MapEntry) : (updMap u f s).runBlk = s.runBlk := rfl
@[simp] theorem updMap_weir (u : Nat) (f : MapEntry → MapEntry) : (updMap u f s).weir = s.weir := rfl
@[simp] theorem updMap_clusters (u : Nat) (f : MapEntry → MapEntry) : (updMap u f s).clusters = s.clusters := rfl
@[simp] theorem updMap_wires (u : Nat) (f : MapEntry → MapEntry) : (updMap u f s).wires = s.wires := rfl
@[simp] theorem updMap_gates (u : Nat) (f : MapEntry → MapEntry) : (updMap u f s).gates = s.gates := rfl
@[simp] theorem updMap_ports (u : Nat) (f : MapEntry → MapEntry) : (updMap u f s).ports = s.ports := rfl
@[simp] theorem updMap_rings (u : Nat) (f : MapEntry → MapEntry) : (updMap u f s).rings = s.rings := rfl
@[simp] theorem updMap_sluices (u : Nat) (f : MapEntry → MapEntry) : (updMap u f s).sluices = s.sluices := rfl
@[simp] theorem updMap_queues (u : Nat) (f : MapEntry → MapEntry) : (updMap u f s).queues = s.queues := rfl
@[simp] theorem updMap_seals (u : Nat) (f : MapEntry → MapEntry) : (updMap u f s).seals = s.seals := rfl
@[simp] theorem updMap_commits (u : Nat) (f : MapEntry → MapEntry) : (updMap u f s).commits = s.commits := rfl
@[simp] theorem updMap_readIds (u : Nat) (f : MapEntry → MapEntry) : (updMap u f s).readIds = s.readIds := rfl
@[simp] theorem updMap_stackMem (u : Nat) (f : MapEntry → MapEntry) : (updMap u f s).stackMem = s.stackMem := rfl
@[simp] theorem updMap_stackUpsets (u : Nat) (f : MapEntry → MapEntry) : (updMap u f s).stackUpsets = s.stackUpsets := rfl

/-! ## After a free value is drawn -/

@[simp] theorem freeVal_pending (w : Nat) : (freeVal w s).2.pending = s.pending := rfl
@[simp] theorem freeVal_lc (w : Nat) : (freeVal w s).2.lc = s.lc := rfl
@[simp] theorem freeVal_lastRelease (w : Nat) : (freeVal w s).2.lastRelease = s.lastRelease := rfl
@[simp] theorem freeVal_power (w : Nat) : (freeVal w s).2.power = s.power := rfl
@[simp] theorem freeVal_heat (w : Nat) : (freeVal w s).2.heat = s.heat := rfl
@[simp] theorem freeVal_hall (w : Nat) : (freeVal w s).2.hall = s.hall := rfl
@[simp] theorem freeVal_dev (w : Nat) : (freeVal w s).2.dev = s.dev := rfl
@[simp] theorem freeVal_mbx (w : Nat) : (freeVal w s).2.mbx = s.mbx := rfl
@[simp] theorem freeVal_cxl (w : Nat) : (freeVal w s).2.cxl = s.cxl := rfl
@[simp] theorem freeVal_safe (w : Nat) : (freeVal w s).2.safe = s.safe := rfl
@[simp] theorem freeVal_ids (w : Nat) : (freeVal w s).2.ids = s.ids := rfl
@[simp] theorem freeVal_flash (w : Nat) : (freeVal w s).2.flash = s.flash := rfl
@[simp] theorem freeVal_map (w : Nat) : (freeVal w s).2.map = s.map := rfl
@[simp] theorem freeVal_logs (w : Nat) : (freeVal w s).2.logs = s.logs := rfl
@[simp] theorem freeVal_decl (w : Nat) : (freeVal w s).2.decl = s.decl := rfl
@[simp] theorem freeVal_resident (w : Nat) : (freeVal w s).2.resident = s.resident := rfl
@[simp] theorem freeVal_image (w : Nat) : (freeVal w s).2.image = s.image := rfl
@[simp] theorem freeVal_runBlk (w : Nat) : (freeVal w s).2.runBlk = s.runBlk := rfl
@[simp] theorem freeVal_weir (w : Nat) : (freeVal w s).2.weir = s.weir := rfl
@[simp] theorem freeVal_clusters (w : Nat) : (freeVal w s).2.clusters = s.clusters := rfl
@[simp] theorem freeVal_wires (w : Nat) : (freeVal w s).2.wires = s.wires := rfl
@[simp] theorem freeVal_gates (w : Nat) : (freeVal w s).2.gates = s.gates := rfl
@[simp] theorem freeVal_ports (w : Nat) : (freeVal w s).2.ports = s.ports := rfl
@[simp] theorem freeVal_rings (w : Nat) : (freeVal w s).2.rings = s.rings := rfl
@[simp] theorem freeVal_sluices (w : Nat) : (freeVal w s).2.sluices = s.sluices := rfl
@[simp] theorem freeVal_queues (w : Nat) : (freeVal w s).2.queues = s.queues := rfl
@[simp] theorem freeVal_seals (w : Nat) : (freeVal w s).2.seals = s.seals := rfl
@[simp] theorem freeVal_commits (w : Nat) : (freeVal w s).2.commits = s.commits := rfl
@[simp] theorem freeVal_readIds (w : Nat) : (freeVal w s).2.readIds = s.readIds := rfl
@[simp] theorem freeVal_stackMem (w : Nat) : (freeVal w s).2.stackMem = s.stackMem := rfl
@[simp] theorem freeVal_stackUpsets (w : Nat) : (freeVal w s).2.stackUpsets = s.stackUpsets := rfl
@[simp] theorem freeVal_tier (w : Nat) : (freeVal w s).2.tier = s.tier := rfl
@[simp] theorem freeVal_freeCount (w : Nat) : (freeVal w s).2.freeCount = s.freeCount + 1 := rfl

/-! ## Reads of a table after an update -/

theorem clusterAt_setCluster (c j : Nat) (k : Cluster) (h : Tab.wf Cluster.reset s.clusters = true) :
    clusterAt (setCluster c k s) j = if j = c then k else clusterAt s j := Tab.get_set _ _ _ _ h

theorem clusterAt_setCluster_ne (c j : Nat) (k : Cluster) (h : j ≠ c) : clusterAt (setCluster c k s) j = clusterAt s j :=
  Tab.get_set_ne _ _ _ _ h

theorem portAt_setPort (p j : Nat) (x : Port) (h : Tab.wf Port.reset s.ports = true) :
    portAt (setPort p x s) j = if j = p then x else portAt s j := Tab.get_set _ _ _ _ h

theorem portAt_updPort (p j : Nat) (f : Port → Port) (h : Tab.wf Port.reset s.ports = true) :
    portAt (updPort p f s) j = if j = p then f (portAt s p) else portAt s j := Tab.get_set _ _ _ _ h

theorem ringAt_updRing (d j : Nat) (f : Ring → Ring) (h : Tab.wf Ring.reset s.rings = true) :
    ringAt (updRing d f s) j = if j = d then f (ringAt s d) else ringAt s j := Tab.get_set _ _ _ _ h

theorem sluiceAt_updSluice (k j : Nat) (f : Sluice → Sluice) (h : Tab.wf Sluice.reset s.sluices = true) :
    sluiceAt (updSluice k f s) j = if j = k then f (sluiceAt s k) else sluiceAt s j := Tab.get_set _ _ _ _ h

theorem queueAt_updQueue (q j : Nat) (f : Queue → Queue) (h : Tab.wf Queue.reset s.queues = true) :
    queueAt (updQueue q f s) j = if j = q then f (queueAt s q) else queueAt s j := Tab.get_set _ _ _ _ h

/-! ## The update that a vector answers -/

@[simp] theorem putAnswer_msix (rc : Nat) (d : DStatus) (check : Nat) (out : Bytes) :
    (putAnswer rc d check out s).cxl.msix = setAt s.cxl.msix 0 (s.cxl.msix.getD 0 0 + 1) := rfl
@[simp] theorem putAnswer_rc (rc : Nat) (d : DStatus) (check : Nat) (out : Bytes) : (putAnswer rc d check out s).mbx.rc = rc := rfl
@[simp] theorem putAnswer_dstatus (rc : Nat) (d : DStatus) (check : Nat) (out : Bytes) :
    (putAnswer rc d check out s).mbx.dstatus = d := rfl
@[simp] theorem putAnswer_out (rc : Nat) (d : DStatus) (check : Nat) (out : Bytes) :
    (putAnswer rc d check out s).mbx.out = out := rfl
@[simp] theorem putAnswer_bg (rc : Nat) (d : DStatus) (check : Nat) (out : Bytes) :
    (putAnswer rc d check out s).mbx.bg = s.mbx.bg := rfl
@[simp] theorem putAnswer_bgRes (rc : Nat) (d : DStatus) (check : Nat) (out : Bytes) :
    (putAnswer rc d check out s).mbx.bgRes = s.mbx.bgRes := rfl
@[simp] theorem putAnswer_mailboxUp (rc : Nat) (d : DStatus) (check : Nat) (out : Bytes) :
    mailboxUp (putAnswer rc d check out s) = mailboxUp s := rfl
@[simp] theorem logEvent_eventCount (code sev place loc : Nat) (data : Bytes) :
    (logEvent code sev place loc data s).logs.eventCount = s.logs.eventCount + 1 := rfl

end Sys2Proof.Machine
end

