-- ==== Sys2Proof/Laws/Fault.lean ====
section
/-! SUPPORT. What a fatal fault does, said once: it leaves the engine in the safe state with the lowest cause of its lc
(R396 to R398), or where no fault counts it leaves the state alone. -/

namespace Sys2Proof.Machine

/-! ## Logging a fault -/

@[simp] theorem suspect_dev (c : Nat) (s : State) : (suspect c s).dev = s.dev := by
  unfold suspect; split <;> rfl
@[simp] theorem suspect_safe (c : Nat) (s : State) : (suspect c s).safe = s.safe := by
  unfold suspect; split <;> rfl
@[simp] theorem suspect_logs (c : Nat) (s : State) : (suspect c s).logs = s.logs := by
  unfold suspect; split <;> rfl

@[simp] theorem noteFault_dev (f : FaultRec) (s : State) : (noteFault f s).dev = s.dev := by
  unfold noteFault; simp only [logEvent_dev]; split <;> simp
@[simp] theorem noteFault_safe (f : FaultRec) (s : State) : (noteFault f s).safe = s.safe := by
  unfold noteFault; simp only [logEvent_safe]; split <;> simp
@[simp] theorem noteFault_eventCount (f : FaultRec) (s : State) :
    (noteFault f s).logs.eventCount = s.logs.eventCount + 1 := by
  unfold noteFault; simp only [logEvent_eventCount]; split <;> simp

theorem noteFaults_dev (fs : List FaultRec) (s : State) : (fs.foldl (fun s x => noteFault x s) s).dev = s.dev := by
  induction fs generalizing s with
  | nil => rfl
  | cons f fs ih => simp [List.foldl_cons, ih]

theorem noteFaults_safe (fs : List FaultRec) (s : State) : (fs.foldl (fun s x => noteFault x s) s).safe = s.safe := by
  induction fs generalizing s with
  | nil => rfl
  | cons f fs ih => simp [List.foldl_cons, ih]

/-! ## The lowest cause of an lc -/

theorem lowest_le (f : FaultRec) (fs : List FaultRec) : (lowest f fs).cause ≤ f.cause := by
  unfold lowest
  induction fs generalizing f with
  | nil => exact Nat.le_refl _
  | cons x xs ih =>
    rw [List.foldl_cons]
    split
    · exact Nat.le_trans (ih x) (Nat.le_of_lt ‹_›)
    · exact ih f

theorem lowest_le_of_mem (f x : FaultRec) (fs : List FaultRec) (h : x ∈ fs) : (lowest f fs).cause ≤ x.cause := by
  unfold lowest
  induction fs generalizing f with
  | nil => cases h
  | cons y ys ih =>
    rw [List.foldl_cons]
    rcases List.mem_cons.mp h with rfl | h
    · split
      · exact lowest_le _ ys
      · exact Nat.le_trans (lowest_le f ys) (Nat.le_of_not_lt ‹_›)
    · exact ih _ h

/-! ## Entry to the safe state -/

/-- The first fault's entry: STATE 7, SAFE set, and its cause in SAFE_STATUS (R331, R335). -/
theorem enterSafe_safeWith (f : FaultRec) (s : State) : safeWith f.cause (enterSafe f s) := by
  refine ⟨by simp [inSafe, enterSafe], ?_⟩
  show (BitVec.ofNat 8 f.cause).toNat ≤ f.cause
  rw [BitVec.toNat_ofNat]
  exact Nat.mod_le _ _

theorem safeWith_mono {a b : Nat} {t : State} (h : safeWith a t) (hab : a ≤ b) : safeWith b t := ⟨h.1, Nat.le_trans h.2 hab⟩

/-- The faults of one lc: the safe state with a cause no higher than any of theirs (R397). -/
theorem enterWith_safeWith (f : FaultRec) (fs : List FaultRec) (s : State) (x : FaultRec) (h : x ∈ f :: fs) :
    safeWith x.cause (enterWith f fs s) := by
  have e := enterSafe_safeWith (lowest f fs) s
  have hx : (lowest f fs).cause ≤ x.cause := by
    rcases List.mem_cons.mp h with rfl | h
    · exact lowest_le _ fs
    · exact lowest_le_of_mem f x fs h
  refine safeWith_mono ?_ hx
  unfold enterWith safeWith inSafe
  simp only [noteFaults_dev, noteFaults_safe]
  exact e

/-- An lc that ends with a fault freezes the lattice (R206, R398). -/
theorem endLc_safeWith (fs : List FaultRec) (x : FaultRec) (s : State) (h : x ∈ fs) : safeWith x.cause (endLc fs s) := by
  unfold endLc
  cases fs with
  | nil => cases h
  | cons f gs =>
    simp only [List.cons_append]
    exact enterWith_safeWith _ _ _ _ (by rcases List.mem_cons.mp h with rfl | h <;> simp_all)

/-- A fatal fault past cold start, where the engine is not in the safe state yet (R396, R397). -/
theorem fatal_safeWith (f : FaultRec) (s : State) (h : canFreeze s = true) : safeWith f.cause (fatal f s) := by
  unfold canFreeze at h
  unfold fatal
  cases hs : s.dev.st <;> simp only [hs] at h ⊢
  all_goals first
    | exact absurd h (by decide)
    | exact endLc_safeWith [f] f s (by simp)
    | exact enterSafe_safeWith f s

/-- Before STATE 2 no fatal fault counts (R396). -/
theorem fatal_of_notStarted (f : FaultRec) (s : State) (h : s.dev.st = .coldStart ∨ s.dev.st = .startFailed) :
    fatal f s = s := by
  unfold fatal; rcases h with h | h <;> rw [h]

/-- In the safe state a further fault is logged, and SAFE_STATUS stays (R397). -/
theorem fatal_of_safe (f : FaultRec) (s : State) (h : s.dev.st = .safe) : fatal f s = noteFault f s := by
  unfold fatal; rw [h]

end Sys2Proof.Machine
end

