-- ==== Sys2Proof/Laws/Issue.lean ====
section
/-! SUPPORT. What the issue of an instruction does, said once: where the core can issue in the current lc, the command is
the instruction's work on its cluster (R79, R110), with no lc passing first. -/

namespace Sys2Proof.Machine

/-! ## A core's registers through updates of its cluster -/

@[simp] theorem inGang_setScalar (k : Sc) (x : ScalarCore) (cl : Cluster) : inGang (setScalar k x cl) = inGang cl := by
  cases k <;> rfl
@[simp] theorem scalarCore_setScalar (k : Sc) (x : ScalarCore) (cl : Cluster) : scalarCore k (setScalar k x cl) = x := by
  cases k <;> rfl
@[simp] theorem inGang_issued (s : State) (c : Nat) (k : Sc) : inGang (issued s c k) = inGang (clusterAt s c) := by
  cases k <;> rfl
@[simp] theorem clashes_issued (n : Nat) (k : Sc) (d : Dst) (s : State) (c : Nat) :
    clashes n k d (issued s c k) = clashes n k d (clusterAt s c) := by cases k <;> rfl
@[simp] theorem readG_issued (s : State) (c : Nat) (k : Sc) (r : Nat) (b : Bool) :
    readG b c k r (issued s c k) = readG b c k r (clusterAt s c) := by cases k <;> rfl
@[simp] theorem readA_issued (s : State) (c r : Nat) (k : Sc) : readA r (issued s c k) = readA r (clusterAt s c) := by
  cases k <;> rfl

/-- What an instruction reads of a register in its lc. -/
theorem rg_issued (s : State) (c : Nat) (k : Sc) (bad : List FaultRec) : rg c k { cl := issued s c k, bad := bad } = gOf s c k := by
  funext r; simp [rg, gOf]

/-! ## Issue of a scalar instruction -/

/-- No lc passes up to one that is here already. -/
theorem advanceTo_self (s : State) (t : Nat) (h : t ≤ s.lc) : advanceTo t s = s := by
  simp [advanceTo, Nat.sub_eq_zero_of_le h, ticks]

/-- S-mem that needs no correction is read as it stands (R106). -/
theorem readSmem_sound (c off n : Nat) (w : Work) (h : soundSmem w.cl off n = true) :
    readSmem c off n w = (Mem.read 0 w.cl.smem off n, w) := by
  have g : ∀ gs : List Nat, (∀ g ∈ gs, Tab.get 0 w.cl.ctlUpsets g = 0) →
      gs.foldl (fun w g =>
        let flaw := Tab.get 0 w.cl.ctlUpsets g
        if flaw = 0 then w
        else if flaw = 10 then w.fail c cEccUncorr (16 * g)
        else w.on (noteCorrected 1 flaw (16 * g))) w = w := by
    intro gs
    induction gs with
    | nil => intro _; rfl
    | cons a t ih => intro hg; simp only [List.foldl_cons, hg a (by simp), if_true]; exact ih (fun g hm => hg g (by simp [hm]))
  simp only [soundSmem, List.all_eq_true, beq_iff_eq] at h
  simp only [readSmem]; exact congrArg _ (g _ h)

theorem issueScalar_of (s : State) (c : Nat) (k : Sc) (d : Option Dst) (f : Act) (h : canIssue s c k = true) :
    issueScalar c k d f s = issueNow c k d f s := by
  simp only [canIssue, Bool.and_eq_true, decide_eq_true_eq, Bool.not_eq_true'] at h
  obtain ⟨⟨⟨⟨⟨⟨_, h2⟩, h6⟩, h3⟩, h4⟩, h5⟩, _⟩ := h
  simp [issueScalar, h2, h3, advanceTo_self _ _ h4, h5, h6]

/-- Where the core can issue, the command is the instruction's work in the current lc. -/
theorem scalarCmd_of (s : State) (c : Nat) (k : Sc) (d : Option Dst) (f : Act) (h : canIssue s c k = true) :
    scalarCmd c k d f s = .next (issueNow c k d f s) := by
  have h' := h
  simp only [canIssue, Bool.and_eq_true] at h'
  simp [scalarCmd, onPlace, h'.1.1.1.1.1.1, issueScalar_of _ _ _ _ _ h]

/-- A core that fetches its own words issues from its own cluster (R132). -/
theorem fetchFrom_self (s : State) (c : Nat) (k : Sc) (h : ganged s c k = false) : fetchFrom s c k = c := by
  simp only [ganged, Bool.and_eq_false_iff, beq_eq_false_iff_ne] at h
  rcases h with h | h <;> simp [fetchFrom, h]

/-- The fetch of a word that needs no correction leaves the cluster as it is. -/
theorem fetchWord_of (s : State) (c : Nat) (k : Sc) (h : canIssue s c k = true) :
    fetchWord s c k (issued s c k) = { cl := issued s c k, bad := [] } := by
  simp only [canIssue, Bool.and_eq_true, Bool.not_eq_true'] at h
  rw [fetchWord, if_pos (fetchFrom_self s c k h.1.1.1.1.2), readSmem_sound]
  cases k <;> exact h.2

/-- Work without a fault and without a colliding result is kept. -/
theorem issueNow_of (s : State) (c : Nat) (k : Sc) (d : Option Dst) (f : Act) (cl : Cluster) (h : canIssue s c k = true)
    (hd : ∀ x, d = some x → alone s c k x = true)
    (hf : f c (clusterAt s c) s.lc { cl := issued s c k, bad := [] } = { cl := cl, bad := [] }) :
    issueNow c k d f s = setCluster c cl s := by
  have hg : fetchFrom s c k = c := by
    simp only [canIssue, Bool.and_eq_true, Bool.not_eq_true'] at h; exact fetchFrom_self s c k h.1.1.1.1.2
  have e : fetchWord s c k (beginIssue k s.lc (clusterAt s c)) = { cl := issued s c k, bad := [] } := fetchWord_of s c k h
  cases d with
  | none => simp [issueNow, workOf, resultOf, e, hg, hf, settle]
  | some x =>
    have := hd x rfl
    simp only [alone, Bool.not_eq_true'] at this
    simp [issueNow, workOf, resultOf, e, hg, hf, settle, this]

/-- A scalar instruction with a result of one lc (R79): rd takes it and the program goes on. -/
theorem scalarOp_of (s : State) (c : Nat) (k : Sc) (rd : BitVec 5) (f : (BitVec 5 → W64) → W64) (h : canIssue s c k = true)
    (ha : alone s c k { isA := false, reg := rd.toNat, lat := 1 } = true) :
    scalarOp c k rd f s = .next (gNext s c k rd (f (gOf s c k))) := by
  rw [scalarOp, scalarCmd_of _ _ _ _ _ h]
  refine congrArg _ (issueNow_of _ _ _ _ _ _ h ?_ ?_)
  · rintro _ ⟨⟩; exact ha
  · simp [opAct, rg_issued, putG, Work.on]

/-! ## Issue of a vector instruction -/

/-- A core that issues is not at reset, so what is put in its place is read back. -/
theorem vecCore_setVec (v : Nat) (x : VecCore) (cl : Cluster) (h : x.st = .issuing) : vecCore v (setVec v x cl) = x :=
  Tab.get_set_of_ne _ _ _ (fun e => by rw [e] at h; cases h)

theorem vecCore_issuedVec (s : State) (c v : Nat) (h : canIssueVec s c v = true) :
    vecCore v (issuedVec s c v) = { vecCore v (clusterAt s c) with ready := s.lc + 1 } := by
  simp only [canIssueVec, Bool.and_eq_true, beq_iff_eq] at h
  exact vecCore_setVec _ _ _ h.1.1.1.2

/-- What an instruction reads of a vector register in its lc. -/
theorem readV_issuedVec (s : State) (c v r : Nat) (h : canIssueVec s c v = true) :
    readV v r (issuedVec s c v) = readV v r (clusterAt s c) := by unfold readV; rw [vecCore_issuedVec _ _ _ h]

/-- What an instruction reads of a mask register in its lc. -/
theorem readM_issuedVec (s : State) (c v r : Nat) (h : canIssueVec s c v = true) :
    readM v r (issuedVec s c v) = readM v r (clusterAt s c) := by unfold readM; rw [vecCore_issuedVec _ _ _ h]

@[simp] theorem landsV_issuedVec (n v r : Nat) (s : State) (c : Nat) :
    landsV n v r (issuedVec s c v) = landsV n v r (clusterAt s c) := rfl
@[simp] theorem landsM_issuedVec (n v r : Nat) (s : State) (c : Nat) :
    landsM n v r (issuedVec s c v) = landsM n v r (clusterAt s c) := rfl

/-- Where the core can issue, the command is the instruction's work in the current lc. -/
theorem vecCmd_of (s : State) (c v : Nat) (f : Nat → Work → Work) (h : canIssueVec s c v = true) :
    vecCmd c v f s = .next (vecNow c v (fun now w => (f now w).on (updVec v vecNext)) s) := by
  simp only [canIssueVec, Bool.and_eq_true, decide_eq_true_eq] at h
  obtain ⟨⟨⟨⟨⟨h1, h2⟩, h3⟩, h4⟩, h5⟩, _⟩ := h
  simp only [beq_iff_eq] at h3
  simp [vecCmd, onPlace, h1, issueVec, h2, h3, advanceTo_self _ _ h4, h5]

/-- Work without a fault is kept, and the program goes on. -/
theorem vecCmd_passed (s : State) (c v : Nat) (f : Nat → Work → Work) (g : Cluster → Cluster) (h : canIssueVec s c v = true)
    (hf : f s.lc { cl := issuedVec s c v, bad := [] } = { cl := g (issuedVec s c v), bad := [] }) :
    vecCmd c v f s = .next (vecPassed s c v g) := by
  rw [vecCmd_of _ _ _ _ h]
  have e : updVec v (fun x => { x with ready := s.lc + 1 }) (clusterAt s c) = issuedVec s c v := rfl
  have hs : soundSmem (issuedVec s c v) (vecCore v (issuedVec s c v)).pc 8 = true := by
    simp only [canIssueVec, Bool.and_eq_true] at h
    rw [vecCore_issuedVec s c v (by simp only [canIssueVec, Bool.and_eq_true]; exact h)]
    exact h.2
  simp [vecNow, e, readSmem_sound _ _ _ { cl := issuedVec s c v, bad := [] } hs, hf, settle, Work.on, vecPassed]

/-- A result for a register in which no other lands in that lc. -/
theorem putV_of (s : State) (c at_ v r : Nat) (x : Lanes) (mask : W32) (bad : List FaultRec)
    (h : landsV at_ v r (clusterAt s c) = false) :
    putV c at_ v r x mask { cl := issuedVec s c v, bad := bad } =
      { cl := later at_ (.v v r x mask) (issuedVec s c v), bad := bad } := by
  simp [putV, h, Work.on]

/-- A lane-wise operation on bits (R63): VD takes the lanes, and nothing else happens. -/
theorem bitOp_of (s : State) (c v : Nat) (vd : BitVec 5) (m : BitVec 3) (lat : Nat) (f : Work → Nat → W32)
    (h : canIssueVec s c v = true) (ha : aloneV s c v lat vd.toNat = true) :
    bitOp c v vd m lat f s = .next (vecMoves s c v lat vd (mOf s c v m) (f { cl := issuedVec s c v, bad := [] })) := by
  simp only [aloneV, Bool.not_eq_true'] at ha
  refine vecCmd_passed s c v _ _ h ?_
  rw [putV_of _ _ _ _ _ _ _ _ ha]
  simp only [vm, readM_issuedVec _ _ _ _ h]
  rfl

/-- A lane-wise FP32 operation (R52, R63): VD takes the rounded lanes, and their events are counted with them. -/
theorem putF_of (s : State) (c v : Nat) (vd : BitVec 5) (lat : Nat) (mask : W32) (f : Nat → FRes)
    (ha : aloneV s c v lat vd.toNat = true) :
    putF c s.lc lat v vd mask f { cl := issuedVec s c v, bad := [] } =
      { cl := laterNum (s.lc + lat) (countLanes mask (fun l => (f l).nan)) (countLanes mask (fun l => overflowed (f l))) 0
          (later (s.lc + lat) (.v v vd.toNat (mkLanes (fun l => (f l).bits)) mask) (issuedVec s c v)), bad := [] } := by
  simp only [aloneV, Bool.not_eq_true'] at ha
  have g : ∀ l, l < 32 → ((List.range 32).map f).getD l { bits := 0, nan := false, ovf := false } = f l := by
    intro l hl; simp [List.getD, hl]
  have e1 : countLanes mask (fun l => (((List.range 32).map f).getD l { bits := 0, nan := false, ovf := false }).nan) =
      countLanes mask (fun l => (f l).nan) := by
    exact congrArg List.length (List.filter_congr (fun l hl => by simp only [g l (List.mem_range.mp hl)]))
  have e2 : countLanes mask (fun l => overflowed (((List.range 32).map f).getD l { bits := 0, nan := false, ovf := false })) =
      countLanes mask (fun l => overflowed (f l)) := by
    exact congrArg List.length (List.filter_congr (fun l hl => by simp only [g l (List.mem_range.mp hl)]))
  have e3 : mkLanes (fun l => (((List.range 32).map f).getD l { bits := 0, nan := false, ovf := false }).bits) =
      mkLanes (fun l => (f l).bits) := by
    exact List.map_congr_left (fun l hl => by rw [g l (List.mem_range.mp hl)])
  simp only [putF, putV_of _ _ _ _ _ _ _ _ ha, Work.on, e1, e2, e3]

end Sys2Proof.Machine
end

