-- ==== Sys2Proof/Laws/Mailbox.lean ====
section
/-! SUPPORT. How the mailbox judges a vendor command, said once: accepted, turned away with BUSY or STATE, or not received
(R322, R338 to R340). -/

namespace Sys2Proof.Machine

/-! ## Answers -/

theorem putAnswer_answered (rc : Nat) (d : DStatus) (check : Nat) (out : Bytes) (s : State) :
    answered rc d out s (putAnswer rc d check out s) := ⟨rfl, rfl, rfl, rfl⟩

theorem reply_replied (d : DStatus) (out : Bytes) (s : State) : replied d out s (reply d out s) := ⟨rfl, rfl, rfl, rfl⟩

theorem reply_onlyMailbox (d : DStatus) (out : Bytes) (s : State) : onlyMailbox s (reply d out s) := rfl

theorem started_bgBegun (b : BgCmd) (s : State) (h : s.mbx.bg = none) : bgBegun b s (started b s) :=
  ⟨⟨rfl, rfl, rfl, rfl⟩, by simp [started, Mailbox.begin, h, putAnswer, raiseMsix]⟩

theorem started_besideBegun (b : BgCmd) (s : State) (h : s.mbx.bg.isSome = true) : besideBegun b s (started b s) :=
  ⟨⟨rfl, rfl, rfl, rfl⟩, by simp [started, Mailbox.begin, h, putAnswer, raiseMsix],
   by simp [started, Mailbox.begin, h, putAnswer, raiseMsix]⟩

theorem finishBg_ended (r : BgResult) (s : State) : ended r s (finishBg r s) := ⟨rfl, rfl, rfl, rfl⟩

@[simp] theorem putAnswer_beside (rc : Nat) (d : DStatus) (check : Nat) (out : Bytes) (s : State) :
    (putAnswer rc d check out s).mbx.beside = s.mbx.beside := rfl
@[simp] theorem finishBg_bg (r : BgResult) (s : State) : (finishBg r s).mbx.bg = s.mbx.beside := rfl
@[simp] theorem finishBg_beside (r : BgResult) (s : State) : (finishBg r s).mbx.beside = none := rfl

/-- A READBACK or ATTEST that runs alone ends as any background command does. -/
theorem finishRead_alone (r : BgResult) (s : State) (h : s.mbx.beside = none) : finishRead r s = finishBg r s := by
  simp [finishRead, h]

@[simp] theorem takeOpcode_dev (op : Nat) (s : State) : (takeOpcode op s).dev = s.dev := rfl
@[simp] theorem takeOpcode_beside (op : Nat) (s : State) : (takeOpcode op s).mbx.beside = s.mbx.beside := rfl
@[simp] theorem takeOpcode_bg (op : Nat) (s : State) : (takeOpcode op s).mbx.bg = s.mbx.bg := rfl
@[simp] theorem takeOpcode_opcode (op : Nat) (s : State) : (takeOpcode op s).mbx.opcode = op := rfl

theorem takeOpcode_onlyMailbox (op : Nat) (s : State) : onlyMailbox s (takeOpcode op s) := rfl

theorem standard_of (op rc : Nat) (out : Bytes) (s : State) (h : mailboxUp s = true) :
    standard op rc out s = putAnswer rc .ok 0 out (takeOpcode op s) := if_pos h

/-! ## Judgement of a vendor command -/

/-- Without a link the command does not arrive (R322). -/
theorem vendor_down (op : Nat) (w : Bool) (ds : List DevState) (work : State → State) (s : State)
    (h : mailboxUp s = false) : vendor op w ds work s = .next s := by simp [vendor, h]

/-- In one of its states, with no background command in the way, the command does its work (R339, R340). -/
theorem vendor_of (op : Nat) (w : Bool) (ds : List DevState) (work : State → State) (s : State) (h : mailboxUp s = true)
    (hb : bgOpen s = true ∨ w = true) (hs : s.dev.st ∈ ds) : vendor op w ds work s = .next (work (takeOpcode op s)) := by
  rcases hb with hb | rfl
  · simp [vendor, h, hb, hs]
  · simp [vendor, h, hs]

/-- With no background command nothing is turned away for one. -/
theorem bgOpen_of_none (s : State) (h : s.mbx.bg = none) : bgOpen s = true := by simp [bgOpen, h]

/-- A background command turns away every command that may not run beside it (R339). -/
theorem vendor_busy (op : Nat) (ds : List DevState) (work : State → State) (s : State) (h : mailboxUp s = true)
    (hb : bgOpen s = false) :
    vendor op false ds work s = .next (reply .busy [] (takeOpcode op s)) := by simp [vendor, h, hb]

/-- Outside its states a command is turned away: BUSY in states 6, 8, 9 and 10 and beside a background command, else STATE
(R340). -/
theorem vendor_turnedAway (op : Nat) (w : Bool) (ds : List DevState) (work : State → State) (s : State)
    (h : mailboxUp s = true) (hs : s.dev.st ∉ ds) :
    vendor op w ds work s = .next (reply .busy [] (takeOpcode op s)) ∨
      vendor op w ds work s = .next (reply .state [] (takeOpcode op s)) := by
  have hc : ds.contains s.dev.st = false := by simpa using hs
  simp only [vendor, h, hc]
  rw [if_neg (by simp)]
  split
  · exact .inl rfl
  · rw [if_neg (by simp)]
    split
    · exact .inl rfl
    · exact .inr rfl

end Sys2Proof.Machine
end

