-- ==== Sys2Proof/Laws/Ports.lean ====
section
/-! SUPPORT. How a port takes in a frame, said once: it leaves the inbox, and is handled in plain form where it passes
every check above the link layer (R245 to R249). -/

namespace Sys2Proof.Machine

@[simp] theorem takeInbox_eq_taken (p vl : Nat) (f : Bytes) (s : State) : takeInbox p vl f s = taken s p vl f := rfl

@[simp] theorem taken_dev (s : State) (p vl : Nat) (f : Bytes) : (taken s p vl f).dev = s.dev := rfl
@[simp] theorem taken_rings (s : State) (p vl : Nat) (f : Bytes) : (taken s p vl f).rings = s.rings := rfl
@[simp] theorem taken_sluices (s : State) (p vl : Nat) (f : Bytes) : (taken s p vl f).sluices = s.sluices := rfl
@[simp] theorem taken_queues (s : State) (p vl : Nat) (f : Bytes) : (taken s p vl f).queues = s.queues := rfl
@[simp] theorem taken_tier (s : State) (p vl : Nat) (f : Bytes) : (taken s p vl f).tier = s.tier := rfl
@[simp] theorem taken_isSafe (s : State) (p vl : Nat) (f : Bytes) : isSafe (taken s p vl f) = isSafe s := rfl

/-- The port after the frame has left its inbox. -/
theorem portAt_taken (s : State) (p vl : Nat) (f : Bytes) (h : Tab.wf Port.reset s.ports = true) :
    portAt (taken s p vl f) p =
      { portAt s p with inbox := removeFirst (fun x => x == { vl := vl, bytes := f }) (portAt s p).inbox } := by
  unfold taken; rw [portAt_setPort _ _ _ _ h, if_pos rfl]

/-- A plain bulk frame that is admitted is handled as it came, and its flits are freed. -/
theorem receiveBulk_of (p vl ftype : Nat) (f : Bytes) (h : Bytes → State → State) (s : State)
    (ha : admitsBulk s p vl ftype f) : receiveBulk p vl ftype f h s = freeLane p vl (h f (taken s p vl f)) := by
  obtain ⟨_, _, h1, h2, h3, h4, h5, h6, h7, h8, h9, h10⟩ := ha
  simp only [passesFilter] at h6
  simp [receiveBulk, passBulk, portAt_taken _ _ _ _ h10, h1, h2, h3, h4, h5, h7, h8, h9, openSeal, passesFilter, h6]

/-- A control frame that is admitted is handled. -/
theorem receiveControl_of (p ctype : Nat) (f : Bytes) (h : State → State) (s : State) (ha : admitsControl s p ctype f) :
    receiveControl p ctype f h s = h (taken s p 8 f) := by
  obtain ⟨_, h1, h2, h3, h4, h5, h6⟩ := ha
  have hn : ¬ (3 ≤ ctype ∧ passesFilter (portAt (taken s p 8 f) p) f = false) := by
    rintro ⟨hc, hf⟩
    rw [portAt_taken _ _ _ _ h6] at hf
    have := h5 hc
    simp only [passesFilter] at hf this
    rw [this] at hf
    cases hf
  unfold receiveControl
  rw [takeInbox_eq_taken]
  simp only [taken_isSafe, h3, h4]
  rw [if_neg hn, portAt_taken _ _ _ _ h6]
  simp [h1, h2]

end Sys2Proof.Machine
end

