-- ==== Sys2Proof/Laws/Power.lean ====
section
/-! SUPPORT. What a measurement of a supply, the division of the load between the feeds, and a cage's module change, said once
(R381, R384, R393, R425): readings, and the counter of the free values that give them. -/

namespace Sys2Proof.Machine


/-- A supply's measurement changes the readings of the fields alone, and draws two free values. -/
theorem measureField_frame (s : State) (f : Nat) :
    measureField s f =
      { s with heat := { s.heat with fields := (measureField s f).heat.fields }, freeCount := s.freeCount + 2 } := rfl

/-- The input power is known without a change of the engine but a free value where none is stated. -/
theorem inputPower_frame (s : State) : (inputPower s).2 = { s with freeCount := (inputPower s).2.freeCount } := by
  simp only [inputPower, freeVal]
  repeat' split
  all_goals rfl

/-- The division of the load changes the readings of the two feeds alone. -/
theorem settleLoad_frame (s : State) :
    settleLoad s =
      { s with power := { s.power with feedA := (settleLoad s).power.feedA, feedB := (settleLoad s).power.feedB },
               freeCount := (settleLoad s).freeCount } := by
  have h := inputPower_frame s
  unfold settleLoad
  rcases he : inputPower s with ⟨w, t⟩
  rw [he] at h
  dsimp only at h
  generalize t.freeCount = n at h
  subst h
  rfl

/-- A module that is plugged or pulled changes its cage alone. -/
theorem setCage_frame (p : Nat) (present : Bool) (s : State) :
    setCage p present s =
      { s with power := { s.power with emptyCages := (setCage p present s).power.emptyCages } } := rfl

end Sys2Proof.Machine
end

