-- ==== Sys2Proof/Laws/Tiles.lean ====
section
/-! SUPPORT. Laws of little-endian fields (R6) and of the tile frames that the engine builds (R266): their fields read
back, and both CRCs hold; a unit reads as the frame written to it (R211, R225). -/

namespace Sys2Proof

@[simp] theorem length_toLe (n x : Nat) : (toLe n x).length = n := by
  induction n generalizing x with
  | zero => rfl
  | succ n ih => simp [toLe, ih]

@[simp] theorem leNat_toLe (n x : Nat) : leNat (toLe n x) = x % 256 ^ n := by
  induction n generalizing x with
  | zero => simp [toLe, leNat, Nat.mod_one]
  | succ n ih =>
    have h : 256 ^ (n + 1) = 256 * 256 ^ n := by rw [Nat.pow_succ, Nat.mul_comm]
    simp [toLe, leNat, ih, h, Nat.mod_mul]

/-- A field between two parts of a byte string. -/
theorem fieldB_append (a b c : Bytes) (off n : Nat) (ha : a.length = off) (hb : b.length = n) :
    fieldB (a ++ (b ++ c)) off n = leNat b := by
  subst ha; subst hb; simp [fieldB]

/-- Bytes of a field that a string holds whole are what the string spells there. -/
theorem leNat_lt (bs : Bytes) : leNat bs < 256 ^ bs.length := by
  induction bs with
  | nil => simp [leNat]
  | cons b bs ih => simp only [leNat, List.length_cons, Nat.pow_succ]; have := b.isLt; omega

namespace Machine

/-- The 60 header bytes before the header CRC. -/
theorem buildTile_split (h : TileHdr) (payload trailer : Bytes) :
    ∃ head : Bytes, head.length = 60 ∧
      head = toLe 4 h.tid ++ (toLe 6 h.version ++ (toLe 3 h.row ++ (toLe 3 h.col ++ (toLe 1 h.fmt ++ (toLe 1 h.shape ++
        (toLe 2 trailer.length ++ (toLe 4 (crc32c (payload ++ trailer)).toNat ++ zeros 36))))))) ∧
      buildTile h payload trailer = head ++ (toLe 4 (crc32c head).toNat ++ (payload ++ trailer)) := by
  refine ⟨_, ?_, rfl, ?_⟩
  · simp [zeros]
  · simp [buildTile, List.append_assoc]

/-- A tile frame that the engine builds from sound fields passes both CRC checks. -/
theorem tileGood_buildTile (h : TileHdr) (payload trailer : Bytes) (hp : payload.length = payloadSize)
    (ht : trailer.length ≤ 1024) (h8 : trailer.length % 8 = 0) (hf : h.fmt < 256) (hs : h.shape < 256)
    (ha : pairAllowed h.fmt h.shape = true) : tileGood (buildTile h payload trailer) = true := by
  obtain ⟨head, hl, he, hb⟩ := buildTile_split h payload trailer
  rw [hb]
  generalize hcr : toLe 4 (crc32c (payload ++ trailer)).toNat = crc at he
  have hcl : crc.length = 4 := by rw [← hcr]; simp
  have e1 : fieldB (head ++ (toLe 4 (crc32c head).toNat ++ (payload ++ trailer))) 0x3C 4 = (crc32c head).toNat := by
    rw [fieldB_append _ _ _ _ _ (by omega) (by simp), leNat_toLe]
    exact Nat.mod_eq_of_lt (crc32c head).isLt
  have field (off n : Nat) (hh : off + n ≤ 60) :
      fieldB (head ++ (toLe 4 (crc32c head).toNat ++ (payload ++ trailer))) off n = fieldB head off n := by
    simp [fieldB, List.drop_append, List.take_append, hl, Nat.sub_eq_zero_of_le (show off ≤ 60 by omega),
      Nat.sub_eq_zero_of_le (show n ≤ 60 - off by omega)]
  have hd : (head ++ (toLe 4 (crc32c head).toNat ++ (payload ++ trailer))).drop 64 = payload ++ trailer := by
    rw [← List.append_assoc, List.drop_left' (by simp [hl])]
  have htk : (head ++ (toLe 4 (crc32c head).toNat ++ (payload ++ trailer))).take 60 = head := List.take_left' hl
  have f10 : fieldB head 0x10 1 = h.fmt := by
    rw [he, ← List.append_assoc, ← List.append_assoc, ← List.append_assoc,
      fieldB_append _ _ _ _ _ (by simp) (by simp), leNat_toLe]; omega
  have f11 : fieldB head 0x11 1 = h.shape := by
    rw [he, ← List.append_assoc, ← List.append_assoc, ← List.append_assoc, ← List.append_assoc,
      fieldB_append _ _ _ _ _ (by simp) (by simp), leNat_toLe]; omega
  have f12 : fieldB head 0x12 2 = trailer.length := by
    rw [he, ← List.append_assoc, ← List.append_assoc, ← List.append_assoc, ← List.append_assoc, ← List.append_assoc,
      fieldB_append _ _ _ _ _ (by simp) (by simp), leNat_toLe]; omega
  have f14 : fieldB head 0x14 4 = (crc32c (payload ++ trailer)).toNat := by
    rw [he, ← List.append_assoc, ← List.append_assoc, ← List.append_assoc, ← List.append_assoc, ← List.append_assoc,
      ← List.append_assoc, fieldB_append _ _ _ _ _ (by simp) (by omega), ← hcr, leNat_toLe]
    exact Nat.mod_eq_of_lt (crc32c _).isLt
  have hz : zeroB (head ++ (toLe 4 (crc32c head).toNat ++ (payload ++ trailer))) 0x18 36 = true := by
    have : (head.drop 0x18) = zeros 36 := by
      rw [he]
      simp [toLe, hcl, zeros]
    simp [zeroB, List.drop_append, List.take_append, hl, this, zeros]
  have hlen : (head ++ (toLe 4 (crc32c head).toNat ++ (payload ++ trailer))).length = 64 + payloadSize + trailer.length := by
    simp [hl, hp]; omega
  simp only [tileGood, headerSound, tFmt, tShape, tTrb, e1, htk, hz, field 0x10 1 (by omega), field 0x11 1 (by omega),
    field 0x12 2 (by omega), field 0x14 4 (by omega), f10, f11, f12, f14, ha, hd, hlen, h8]
  simp [ht]

/-! ## Slots and units -/

/-- The slot of a sound tile frame reads back as the frame (R211). -/
theorem frameOfSlot_slotOfFrame (t rest : Bytes) (h : tileGood t = true) : frameOfSlot (slotOfFrame t ++ rest) = t := by
  simp only [tileGood, headerSound, Bool.and_eq_true, beq_iff_eq, decide_eq_true_eq] at h
  obtain ⟨⟨⟨⟨-, hl⟩, -⟩, ht⟩, -⟩ := h
  have hp : (tPayload t).length = payloadSize := by simp [tPayload, hl]; omega
  have h64 : (t.take 64).length = 64 := by simp [hl]; omega
  have htr : (tTrailer t).length = tTrb t := by simp [tTrailer, hl]
  have e : slotOfFrame t ++ rest = tPayload t ++ (t.take 64 ++ (tTrailer t ++ rest)) := by simp [slotOfFrame]
  have h1 : ((slotOfFrame t ++ rest).drop payloadSize).take 64 = t.take 64 := by
    rw [e, List.drop_left' hp, List.take_left' h64]
  have h2 : (slotOfFrame t ++ rest).take payloadSize = tPayload t := by rw [e, List.take_left' hp]
  have h3 : fieldB (t.take 64) 0x12 2 = tTrb t := by
    simp [fieldB, tTrb, List.drop_take, List.take_take]
  have h4 : (slotOfFrame t ++ rest).drop (payloadSize + 64) = tTrailer t ++ rest := by
    rw [e, ← List.append_assoc]; exact List.drop_left' (by simp [hp, h64, payloadSize])
  simp only [frameOfSlot, h1, h2, h3, h4, Nat.min_eq_right ht]
  rw [← htr, List.take_left' rfl]
  simp only [tPayload, tTrailer]
  rw [List.append_assoc, ← List.drop_drop, List.take_append_drop, List.take_append_drop]

/-- A read of two stretches of a memory. -/
theorem Mem_read_add (m : Mem) (b : Byte) (a p q : Nat) :
    Mem.read b m a (p + q) = Mem.read b m a p ++ Mem.read b m (a + p) q := by
  induction p generalizing a with
  | zero => simp [Mem.read]
  | succ p ih =>
    rw [Nat.add_right_comm]
    simp only [Mem.read, ih, List.cons_append]
    rw [Nat.add_right_comm, Nat.add_assoc]

/-- A unit to which a sound tile frame has been written reads as that frame (R211, R225). -/
theorem readUnit_of_write (s : State) (u : Nat) (t : Bytes) (m : Mem) (hm : Tab.wf 0 m = true) (h : tileGood t = true)
    (hs : s.stackMem = Mem.write 0 m (slotKey (mapAt s u).stack (mapAt s u).slot) (slotOfFrame t)) :
    (readUnit u s).1 = t := by
  have hl : (slotOfFrame t).length ≤ slotSize := by
    simp only [tileGood, headerSound, Bool.and_eq_true, beq_iff_eq, decide_eq_true_eq] at h
    obtain ⟨⟨⟨⟨-, hl⟩, -⟩, ht⟩, -⟩ := h
    simp [slotOfFrame, tPayload, tTrailer, hl, slotSize, payloadSize]; omega
  obtain ⟨n, hn⟩ := Nat.exists_eq_add_of_le hl
  simp only [readUnit, readStack, hs]
  rw [hn, Mem_read_add, Mem.read_write _ _ _ _ hm]
  exact frameOfSlot_slotOfFrame t _ h

end Machine
end Sys2Proof
end

