-- ==== Sys2Proof/Tests/Slice0.lean ====
section
/-! SUPPORT. Tests: commands refused for places that do not exist; for every statement of Certificates/Slice0/Obligations.lean
concrete states that meet the hypotheses of each of its clauses (witness_…); and small results worked out by hand from
the rules (test_…). -/

namespace Sys2Proof.Tests

set_option Elab.async false

open Sys2Proof.Machine

/-! ## States to test on -/

/-- The state that a command answers. -/
def after (i : Instr) (s : State) : State := match exec i s with | .next t => t | _ => s

/-- Whether a command answers a next state in the safe state, with a cause. -/
def freezesWith (cause : Nat) (i : Instr) (s : State) : Bool :=
  match exec i s with | .next t => inSafe t && t.safe.cause.toNat == cause | _ => false

/-- A byte list by places: the bytes listed, zero elsewhere. -/
def bytesAt (n : Nat) (f : List (Nat × Nat)) : Bytes :=
  (List.range n).map (fun i => BitVec.ofNat 8 (((f.find? (fun e => e.1 == i)).map Prod.snd).getD 0))

/-- The configuration of a run with one participant and two weirs, the second the final one. -/
def image : Image :=
  { mode := 0, runBlock := 0x90000, gearDiv := [84, 96, 120, 168], sentDigest := 0,
    weirs := [{ num := 7, relay := true, sent := false, deadline := 0, relayAfter := 0,
                conds := [{ kind := 7, defer := true, obj := 0, arg := 0 }, { kind := 6, defer := true, obj := 0, arg := 0 }],
                digs := [{ tid := 9, x := 100, y := 45, addr := 0x80000 }] },
              { num := 8, relay := false, sent := false, deadline := 0, relayAfter := 0, conds := [], digs := [] }],
    parts := [15940], applied := [] }

/-- Regions of a program directory (R108): S0 at 0x0100, S1 at 0x0500, the vector programs at 0x0900, each 0x400 long. -/
def directory : Mem := [(0x05, 1), (0x07, 4), (0x09, 5), (0x0B, 4), (0x0D, 9), (0x0F, 4)]

/-- A cluster whose cores all issue: g1 is 5, g2 is −3, a0 is 0x80000. -/
def cluster : Cluster :=
  { Cluster.reset with
    smem := directory, mem := [(0x80000, 0x11), (0x80004, 0x22)],
    s0 := { ScalarCore.reset with pc := 0x100, st := .issuing, g := [(1, 5), (2, -3)] },
    s1 := { ScalarCore.reset with pc := 0x500, st := .issuing, g := [(1, 5), (2, -3)] },
    a := [(0, 0x80000), (1, 7)],
    vecs := [(0, { VecCore.reset with pc := 0x900, st := .issuing })] }

/-- The engine powered, with the host link up, in a state. -/
def engine (st : DevState) : State :=
  { State.reset with
    power := { Power.reset with on := true, pwrEn := true }, cxl := { Cxl.reset with link := true },
    dev := { Dev.reset with st := st } }

/-- A run with one cluster, (100, 45) of the spec's example. -/
def running (cl : Cluster) : State :=
  { engine .running with image := some image, clusters := [(15940, cl)], weir := { WeirCtl.reset with phase := .beforeDue } }

/-! ## Ill-formed commands -/

theorem test_vacant_cluster : exec (.addi 0 .s0 1 1 1) (running cluster) = .fault .noSuchPlace := by rfl
theorem test_no_such_vector_core : exec (.dend 15940 6) (running cluster) = .fault .noSuchPlace := by rfl
theorem test_no_such_port : exec (.pcsLock 24) State.reset = .fault .noSuchPlace := by rfl
theorem test_no_such_lane : exec (.tile 0 8 []) State.reset = .fault .noSuchPlace := by rfl
theorem test_no_such_channel : exec (.replayTimeout 0 9) State.reset = .fault .noSuchPlace := by rfl
theorem test_no_such_audit_lane : exec (.auditSend 0 8) State.reset = .fault .noSuchPlace := by rfl
theorem test_no_such_queue : exec (.descriptorStart 24576) State.reset = .fault .noSuchPlace := by rfl
theorem test_no_such_ring_die : exec (.shardCheck 12) State.reset = .fault .noSuchPlace := by rfl
theorem test_no_such_sluice : exec (.sluiceDrained 0 32768) State.reset = .fault .noSuchPlace := by rfl
theorem test_no_such_stack : exec (.store 16 0) State.reset = .fault .noSuchPlace := by rfl
theorem test_no_such_field : exec (.supplyFault 94 .overheat) State.reset = .fault .noSuchPlace := by rfl
theorem test_no_such_sensor : exec (.sensorSilent (.sensor (.junction 93 8))) State.reset = .fault .noSuchPlace := by rfl
theorem test_no_such_gate : exec (.gateInject ⟨true, 16, 0⟩) State.reset = .fault .noSuchPlace := by rfl
theorem test_sample_of_no_sensor :
    exec (.sensorSample [⟨.stack 15, 0⟩, ⟨.coolant 4, 0⟩]) State.reset = .fault .noSuchPlace := by rfl

theorem test_ill_formed :
    [Instr.addi 0 .s0 1 1 1, .dend 15940 6, .pcsLock 24, .tile 0 8 [], .replayTimeout 0 9, .auditSend 0 8,
     .descriptorStart 24576, .shardCheck 12, .sluiceDrained 0 32768, .store 16 0, .supplyFault 94 .overheat,
     .sensorSilent (.sensor (.junction 93 8)), .gateInject ⟨true, 16, 0⟩, .sensorSample [⟨.stack 15, 0⟩, ⟨.coolant 4, 0⟩]].any
      Instr.wf = false := by decide +kernel

/-- The example of the scope chapter: (100, 45) is cluster 15,940 of field 17, at (20, 5) of it (R21). -/
theorem test_cluster_numbers : cnum 100 45 = 15940 ∧ locate 100 45 = some (17, 20, 5) := by decide +kernel

/-- No row of the table has bits, so no word spells a command. -/
theorem test_no_word_spells_a_command : decodeTableWord 32 0 = none ∧ State.reset.withFetchWord 32 0 = State.reset := by
  decide +kernel

/-! ## The queue -/

theorem witness_StepRunsTheFrontCommand : State.reset.pending = [] := by rfl
theorem test_step_takes_the_first :
    step { engine .ready with pending := [.hold true, .hold false] } =
      .next { engine .ready with pending := [.hold false], weir := { WeirCtl.reset with hold := true } } := by rfl
theorem test_idle_unpowered : step State.reset = .next State.reset := by rfl

/-! ## Scalar instructions -/

/-- A run in which S1, the vector core and the matrix cores are still, as R119 wants it at a weir. -/
def quiet : State :=
  running { cluster with s1 := ScalarCore.reset, vecs := [] }

theorem witness_ScalarArithmeticResults :
    canIssue (running cluster) 15940 .s0 = true ∧
    alone (running cluster) 15940 .s0 { isA := false, reg := 31, lat := 1 } = true ∧
    alone (running cluster) 15940 .s1 { isA := false, reg := 3, lat := 3 } = true ∧
    canIssue (running cluster) 15940 .s1 = true := by decide +kernel

/-- 5 + (−3) = 2, and −3 < 5 signed but not unsigned (R113). -/
theorem test_add : gOf (after (.alu 15940 .s0 3 1 2 0) (running cluster)) 15940 .s0 3 = 2 := by decide +kernel
theorem test_slt : gOf (after (.alu 15940 .s0 3 2 1 8) (running cluster)) 15940 .s0 3 = 1 := by decide +kernel
theorem test_sltu : gOf (after (.alu 15940 .s0 3 2 1 9) (running cluster)) 15940 .s0 3 = 0 := by decide +kernel
/-- −3 shifted right by 1, arithmetically, is −2 (R113). -/
theorem test_shi : gOf (after (.shi 15940 .s0 3 2 0x8001) (running cluster)) 15940 .s0 3 = -2 := by decide +kernel
theorem test_shi_top : gOf (after (.shi 15940 .s0 3 1 0x003F) (running cluster)) 15940 .s0 3 = 0x8000000000000000 := by decide +kernel
theorem test_movk : gOf (after (.movk 15940 .s0 2 3 0x1234) (running cluster)) 15940 .s0 2 = 0x1234FFFFFFFFFFFD := by decide +kernel
theorem test_mul_is_late :
    gOf (after (.alu 15940 .s0 3 1 2 10) (running cluster)) 15940 .s0 3 = 0 ∧
    (clusterAt (after (.alu 15940 .s0 3 1 2 10) (running cluster)) 15940).late = [(3, .g .s0 3 (-15))] := by decide +kernel

/-- A product that lands in g3 in lc 3 already. -/
def clashing : State := running { cluster with late := [(3, .g .s0 3 9), (2, .v 0 1 Lanes.zero 0), (2, .m 0 1 0 0)] }

theorem witness_CollidingResultsAreFree :
    canIssue clashing 15940 .s0 = true ∧ alone clashing 15940 .s0 { isA := false, reg := 3, lat := 3 } = false ∧
    canIssueVec clashing 15940 0 = true ∧ aloneV clashing 15940 0 2 1 = false ∧ aloneM clashing 15940 0 2 1 = false ∧
    (f32 (lane (vOf clashing 15940 0 5) 0)).finite = true ∧ (f32 (lane (vOf clashing 15940 0 5) 0)).negative = false := by
  decide +kernel
theorem test_colliding_vector_results : freezesWith 0x03 (.li 15940 0 1 0 5) clashing = true := by decide +kernel
theorem test_colliding_mask_results : freezesWith 0x03 (.fcmp 15940 0 1 2 3 0 0) clashing = true := by decide +kernel
theorem test_colliding_scalar_results :
    (clusterAt (after (.alu 15940 .s0 3 1 2 10) clashing) 15940).late.map Prod.fst = [3, 2, 2, 3] ∧
    inSafe (after (.alu 15940 .s0 3 1 2 10) clashing) = false := by decide +kernel

theorem witness_RegistersAndResults :
    Tab.wf 0 (scalarCore .s0 cluster).g = true ∧ ((Sc.s0, 2) ≠ (Sc.s0, 3)) ∧ ((Sc.s1, 3) ≠ (Sc.s0, 3)) ∧
    badBanks 0 cluster = [] ∧
    dueLate false 1 { cluster with late := [(1, .v 0 1 Lanes.zero 1)] } = [.v 0 1 Lanes.zero 1] ∧
    Tab.wf VecCore.reset cluster.vecs = true ∧ Tab.wf Lanes.zero (vecCore 0 cluster).v = true ∧
    dueLate false 1 { cluster with late := [(1, .mem 0x80000 [1, 2] 0 true)] } = [.mem 0x80000 [1, 2] 0 true] ∧
    droppedIds 0 { cluster with late := [(1, .mem 0x80000 [1, 2] 0 true)] } = [] ∧ cluster.upsets = [] ∧
    badBanks 0 { cluster with late := [(1, .mem 0x80000 [1, 2] 0 true)] } = [] ∧ Tab.wf 0 cluster.mem = true := by decide +kernel
theorem test_g0 : gOf (after (.addi 15940 .s0 0 1 7) (running cluster)) 15940 .s0 0 = 0 := by decide +kernel

/-- S0 inside a loop body from 0x0FC to 0x104, and inside an outer one that ends there too. -/
def looping : State :=
  running { cluster with s0 := { cluster.s0 with
    loops := [{ left := 1, start := 0xFC, stop := 0x104 }, { left := 3, start := 0x80, stop := 0x104 }] } }

/-- S0 with full stacks. -/
def deep : State :=
  running { cluster with s0 := { cluster.s0 with
    rets := [1, 2, 3, 4], loops := List.replicate 4 { left := 2, start := 0x80, stop := 0x200 } } }

theorem witness_ControlFlow :
    canIssue (running cluster) 15940 .s0 = true ∧
    leavesLoop (scalarCore .s0 (clusterAt (running cluster) 15940)) (targetOf 0x100 (-0x40)) = false ∧
    leavesLoop (scalarCore .s0 (clusterAt looping 15940)) (targetOf 0x100 (-1)) = false ∧
    (scalarCore .s0 (issued (running cluster) 15940 .s0)).rets.length < 4 ∧
    canIssue deep 15940 .s0 = true ∧ (scalarCore .s0 (issued deep 15940 .s0)).rets = 1 :: [2, 3, 4] ∧
    canIssue looping 15940 .s0 = true ∧ (scalarCore .s0 (issued looping 15940 .s0)).loops.length < 4 ∧
    overruns (scalarCore .s0 (issued (running cluster) 15940 .s0)) 0x200 = false ∧
    (gOf (running cluster) 15940 .s0 1).toNat % 2 ^ 32 ≠ 0 ∧ (gOf (running cluster) 15940 .s0 0).toNat % 2 ^ 32 = 0 ∧
    (clusterAt looping 15940).s0.loops =
      [{ left := 1, start := 0xFC, stop := 0x104 }] ++ { left := 3, start := 0x80, stop := 0x104 } :: [] := by decide +kernel
theorem witness_ControlFlow_end_of_bodies :
    ∀ d ∈ [({ left := 1, start := 0xFC, stop := 0x104 } : LoopFrame)], d.stop = 0x104 ∧ d.left ≤ 1 := by decide +kernel

/-- A gang of two clusters of field 17: its leader at (16, 0) of the field and the one at (20, 5) (R132). -/
def ganging : State :=
  let cl : Cluster := { cluster with smem := (0x02, 1) :: directory }
  { running cl with
    clusters := [(14176, { cl with s0 := { cl.s0 with g := [(2, -3)] } }), (15940, cl)],
    image := some { image with parts := [14176, 15940] } }

theorem witness_ControlFlow_gang :
    gangIssues ganging 14176 [15940] = true ∧ State.canon ganging = true ∧ (participants ganging).Nodup ∧
    (∀ m ∈ [14176, 15940], alone ganging m .s0 { isA := false, reg := 3, lat := 1 } = true ∧
      leavesLoop (clusterAt ganging m).s0 (targetOf (pcOf ganging m .s0) 4) = false) := by decide +kernel
/-- Every member adds to its own g2; the leader's g2 decides the branch; a member issues nothing by itself (R132). -/
theorem test_gang_issues_together :
    (gOf (after (.addi 14176 .s0 3 2 5) ganging) 14176 .s0 3, gOf (after (.addi 14176 .s0 3 2 5) ganging) 15940 .s0 3) = (2, 2) ∧
    pcOf (after (.beq 14176 .s0 0 2 4) ganging) 15940 .s0 = 0x104 ∧ after (.addi 15940 .s0 3 2 5) ganging = ganging := by
  decide +kernel
theorem test_loop_ends :
    pcOf (after (.addi 15940 .s0 3 1 0) looping) 15940 .s0 = 0x80 ∧
    (clusterAt (after (.addi 15940 .s0 3 1 0) looping) 15940).s0.loops = [{ left := 2, start := 0x80, stop := 0x104 }] := by
  decide +kernel
theorem test_blt : pcOf (after (.blt 15940 .s0 2 1 (-2)) (running cluster)) 15940 .s0 = 0xF8 := by decide +kernel
theorem test_bltu : pcOf (after (.bltu 15940 .s0 2 1 (-2)) (running cluster)) 15940 .s0 = 0x104 := by decide +kernel
theorem test_call :
    pcOf (after (.call 15940 .s0 0x10) (running cluster)) 15940 .s0 = 0x140 ∧
    (clusterAt (after (.call 15940 .s0 0x10) (running cluster)) 15940).s0.rets = [0x104] := by decide +kernel
theorem test_loop_of_zero : pcOf (after (.loop 15940 .s0 0 2) (running cluster)) 15940 .s0 = 0x10C := by decide +kernel

/-- A cluster with one descriptor, at 0x2000 of S-mem: a COPY of two units from 0x80100 to 0x80000 (R108, R122, R123). -/
def copying : State :=
  running { cluster with
    smem := Mem.write 0 (directory ++ [(0x11, 0x20), (0x12, 1)]) 0x2000
      (toLe 16 (3 * 2 ^ 122 + 2 * 2 ^ 98 + 0x10000 * 2 ^ 77 + 0x10020 * 2 ^ 60 + 4 * 2 ^ 50 + 4 * 2 ^ 40)) }

/-- The macro-operation of that descriptor. -/
def copyOp : Macro :=
  macroOf (leNat (Mem.read 0 (clusterAt copying 15940).smem 0x2000 16)) 0 none none

theorem witness_CoresOccupied :
    canIssue copying 15940 .s0 = true ∧ 0 < dirWord (issued copying 15940 .s0) 0x12 ∧
    dirWord (issued copying 15940 .s0) 0x10 = 0x2000 ∧
    macroOk 0 (leNat (Mem.read 0 (issued copying 15940 .s0).smem 0x2000 16)) copyOp = true ∧
    bit (leNat (Mem.read 0 (issued copying 15940 .s0).smem 0x2000 16)) 94 = false ∧
    bits (leNat (Mem.read 0 (issued copying 15940 .s0).smem 0x2000 16)) 25 15 = 0 ∧
    (matCore 0 (issued copying 15940 .s0)).free ≤ copying.lc ∧ copyOp.count = 2 ∧ copyOp.bAddr = 0x80100 ∧
    descAddrOk copyOp = true ∧ bAddrOk copyOp = true ∧
    (aRanges copyOp ++ bRanges copyOp).any (fun r => guarded (issued copying 15940 .s0) r.1 r.2) = false ∧
    (issued copying 15940 .s0).upsets = [] ∧ (issued copying 15940 .s0).ctlUpsets = [] := by decide +kernel
/-- The same descriptor with a COUNT of 0, and an F core that is occupied for one more lc. -/
def nothingToCopy : State :=
  running { clusterAt copying 15940 with
    smem := Mem.write 0 (clusterAt copying 15940).smem 0x2000
      (toLe 16 (3 * 2 ^ 122 + 0x10000 * 2 ^ 77 + 0x10020 * 2 ^ 60 + 4 * 2 ^ 50 + 4 * 2 ^ 40)) }
def occupied : State := running { clusterAt copying 15940 with mats := [(0, { MatCore.reset with free := 1 })] }

theorem witness_CoresOccupied_corners :
    canIssue nothingToCopy 15940 .s0 = true ∧ canIssue occupied 15940 .s0 = true ∧
    macroOk 0 (leNat (Mem.read 0 (issued nothingToCopy 15940 .s0).smem 0x2000 16))
      (macroOf (leNat (Mem.read 0 (clusterAt nothingToCopy 15940).smem 0x2000 16)) 0 none none) = true ∧
    (macroOf (leNat (Mem.read 0 (clusterAt nothingToCopy 15940).smem 0x2000 16)) 0 none none).count = 0 ∧
    occupied.lc < (matCore 0 (issued occupied 15940 .s0)).free := by decide +kernel
theorem test_mop_corners :
    (matCore 0 (clusterAt (after (.mop 15940 0 0 false 0) nothingToCopy) 15940)).op = none ∧
    pcOf (after (.mop 15940 0 0 false 0) nothingToCopy) 15940 .s0 = 0x104 ∧
    freezesWith 0x03 (.mop 15940 0 0 false 0) occupied = true := by decide +kernel
theorem test_mop_copy :
    (matCore 0 (clusterAt (after (.mop 15940 0 0 false 0) copying) 15940)).free = 4 ∧
    ((matCore 0 (clusterAt (after (.mop 15940 0 0 false 0) copying) 15940)).op.map (fun o => (o.mopc, o.count))) = some (3, 2) := by
  decide +kernel
theorem test_wait :
    (clusterAt (after (.wait 15940 .s0 9) (running cluster)) 15940).s0.ready = 10 ∧
    (clusterAt (after (.wait 15940 .s0 9) (running cluster)) 15940).s0.st = .waiting := by decide +kernel

/-- S0 with its program counter outside its region. -/
def astray : State := running { cluster with s0 := { cluster.s0 with pc := 0x500 } }

theorem witness_ReservedFormsFreeze :
    canIssue deep 15940 .s0 = true ∧ (11 : BitVec 11).toNat ≥ 11 ∧ (0xC000 : BitVec 16).toNat / 2 ^ 14 = 3 ∧
    (0x0040 : BitVec 16).toNat / 2 ^ 6 % 2 ^ 8 ≠ 0 ∧ 4 ≤ (scalarCore .s0 (clusterAt deep 15940)).loops.length ∧
    overruns (scalarCore .s0 (clusterAt deep 15940)) 0x204 = true ∧ 4 ≤ (scalarCore .s0 (clusterAt deep 15940)).rets.length ∧
    canIssue (running cluster) 15940 .s0 = true ∧ (scalarCore .s0 (clusterAt (running cluster) 15940)).rets = [] ∧
    leavesLoop (scalarCore .s0 (clusterAt deep 15940)) (targetOf 0x100 0x40) = true ∧
    isCluster 15940 = true ∧ latticeRuns astray = true ∧ (scalarCore .s0 (clusterAt astray 15940)).runs = true ∧
    (scalarCore .s0 (clusterAt astray 15940)).ready ≤ astray.lc ∧
    inRegion (clusterAt astray (fetchFrom astray 15940 .s0)) (regionOff .s0) (scalarCore .s0 (clusterAt astray 15940)).pc = false ∧
    canIssueVec (running cluster) 15940 0 = true ∧ cvtOk 0 0 0 = false ∧ isMx 1 = false := by decide +kernel
theorem test_reserved_scalar :
    freezesWith 0x08 (.alu 15940 .s0 1 1 1 11) (running cluster) = true ∧
    freezesWith 0x08 (.loop 15940 .s0 1 0) (running cluster) = true ∧
    freezesWith 0x08 (.loop 15940 .s0 1 1) deep = true ∧ freezesWith 0x08 (.call 15940 .s0 1) deep = true ∧
    freezesWith 0x08 (.ret 15940 .s0) (running cluster) = true ∧ freezesWith 0x08 (.jmp 15940 .s0 0x40) deep = true ∧
    freezesWith 0x08 (.addi 15940 .s0 1 1 1) astray = true := by decide +kernel
theorem test_reserved_vector :
    freezesWith 0x08 (.fcmp 15940 0 8 0 0 0 0) (running cluster) = true ∧
    freezesWith 0x08 (.wadd 15940 0 1 0 0 0) (running cluster) = true ∧
    freezesWith 0x08 (.dfoldt 15940 0 0 0) (running cluster) = true ∧
    freezesWith 0x08 (.gst 15940 0 { addr := 0x80000, width := 1, step := 0 }) (running cluster) = true := by decide +kernel

theorem witness_ProgramsStartAndEnd :
    canIssue (running cluster) 15940 .s0 = true ∧ inRegion (clusterAt (running cluster) 15940) 0x0C (8 * 0x120) = true ∧
    vecBusy 1 (clusterAt (running cluster) 15940) = false ∧ vecBusy 0 (clusterAt (running cluster) 15940) = true ∧
    s1Running (clusterAt (running cluster) 15940) = true ∧ s1Running (clusterAt quiet 15940) = false ∧
    canIssue quiet 15940 .s0 = true ∧ canIssueVec (running cluster) 15940 0 = true ∧
    (vecCore 0 (clusterAt (running cluster) 15940)).repLeft = 0 := by decide +kernel
theorem test_vstart :
    (clusterAt (after (.vstart 15940 1 0x120) (running cluster)) 15940).late = [(2, .vstart 1 0x900)] := by decide +kernel
theorem test_vstart_busy : freezesWith 0x03 (.vstart 15940 0 0x120) (running cluster) = true := by decide +kernel

/-- A run whose final weir has released, with S0 at it. -/
def finished : State :=
  { running { cluster with s0 := { cluster.s0 with st := .atWeir } } with
    weir := { WeirCtl.reset with phase := .released, relIx := 1, await := 2 } }

/-- A vector core in its last repeat but one, at the last instruction of the block. -/
def repeating : VecCore :=
  { VecCore.reset with pc := 0x918, st := .issuing, repLeft := 2, repStart := 0x908, repStop := 0x920, repIter := 4 }

theorem witness_ProgramsStartAndEnd_stop :
    (clusterAt finished 15940).s0.st = .atWeir ∧ finalReleased finished = true ∧ latticeRuns finished = true ∧
    repeating.repLeft ≠ 0 ∧ repeating.pc + 8 = repeating.repStop ∧ ganged finished 15940 .s0 = false := by decide +kernel

/-- The gang, its S0 at the final weir, which has released. -/
def gangFinished : State :=
  { ganging with
    clusters := ganging.clusters.map (fun e => (e.1, { e.2 with s0 := { e.2.s0 with st := .atWeir } })), weir := finished.weir }

theorem witness_ProgramsStartAndEnd_gang :
    ganged gangFinished 14176 .s0 = true ∧ gangLeader 14176 = 14176 ∧ gangLeader 15940 = 14176 ∧
    15940 ∈ participants gangFinished ∧ inGang (clusterAt gangFinished 15940) = true ∧
    (clusterAt gangFinished 15940).s0.st = .atWeir ∧ (clusterAt gangFinished 14176).s0.st = .atWeir ∧
    finalReleased gangFinished = true ∧ latticeRuns gangFinished = true := by decide +kernel
theorem test_gang_stops : (clusterAt (after (.stop 14176) gangFinished) 15940).s0.st = .stopped := by decide +kernel
theorem witness_ProgramsStartAndEnd_nested :
    canIssueVec (running { cluster with vecs := [(0, repeating)] }) 15940 0 = true ∧
    (vecCore 0 (clusterAt (running { cluster with vecs := [(0, repeating)] }) 15940)).repLeft ≠ 0 := by decide +kernel
theorem test_stop : (clusterAt (after (.stop 15940) finished) 15940).s0.st = .stopped := by decide +kernel
theorem test_stop_elsewhere : freezesWith 0x08 (.stop 15940) (running cluster) = true := by decide +kernel
theorem test_rep_goes_back : (vecNext repeating).pc = 0x908 ∧ (vecNext repeating).repLeft = 1 := by decide +kernel
theorem test_nested_rep :
    freezesWith 0x08 (.rep 15940 0 1 1) (running { cluster with vecs := [(0, repeating)] }) = true := by decide +kernel

/-- A quiet run with a scratch range and a JMP of two words behind the instruction at 0x0100. -/
def atJump : State :=
  running { cluster with
    s1 := ScalarCore.reset, vecs := [],
    smem := directory ++ [(0x22, 8), (0x104, 2), (0x107, 0x38)] }

theorem witness_WeirArrival :
    canIssue atJump 15940 .s0 = true ∧ sentScratch (issued atJump 15940 .s0) = 0x80000 ∧
    bits (smemWord (clusterAt atJump (fetchFrom atJump 15940 .s0)) 0x104) 31 26 = 0x0E ∧
    weirReady atJump.lc (issued atJump 15940 .s0) = true ∧
    canIssue (running cluster) 15940 .s0 = true ∧ weirReady 0 (issued (running cluster) 15940 .s0) = false := by decide +kernel
/-- The relay goes on at the target of the JMP at 0x104, two words on: 0x10C; the main segment at 0x108 (R118). -/
theorem test_weir :
    (clusterAt (after (.weir 15940 7 true true) atJump) 15940).resumeMain = 0x108 ∧
    (clusterAt (after (.weir 15940 7 true true) atJump) 15940).resumeRelay = 0x10C ∧
    (clusterAt (after (.weir 15940 7 true true) atJump) 15940).s0.st = .atWeir := by decide +kernel
theorem test_weir_too_early : freezesWith 0x03 (.weir 15940 7 false false) (running cluster) = true := by decide +kernel

/-- A participant at weir 7 whose ARRIVE is on its way. -/
def arriving : State :=
  running { cluster with s0 := { cluster.s0 with st := .atWeir }, arriveSent := true, weirNum := 7 }
/-- The same with both messages noted. -/
def gathered : State :=
  { arriving with weir := { arriving.weir with arrived := [15940], landed := [15940], due := some 0, phase := .held } }

theorem witness_WeirArrival_messages :
    inRun arriving = true ∧ (participants arriving).contains 15941 = false ∧ (participants arriving).contains 15940 = true ∧
    (awaited arriving).map (fun e => e.num) = some 7 ∧ gathers arriving = true ∧ hasArrived arriving 15940 7 = true ∧
    15940 ∉ arriving.weir.arrived ∧ 15940 ∉ arriving.weir.landed ∧ rowsLanded 7 (clusterAt arriving 15940) = true ∧
    15940 ∈ gathered.weir.arrived ∧ 15940 ∈ gathered.weir.landed ∧ isCluster 15941 = true := by decide +kernel
theorem test_arrive :
    (after (.arrive 15940 7) arriving).weir.arrived = [15940] ∧ (after (.arrive 15940 7) arriving).weir.due = some 0 := by
  decide +kernel
theorem test_arrive_twice : freezesWith 0x0E (.arrive 15940 7) gathered = true := by decide +kernel
theorem test_arrive_at_another_weir : freezesWith 0x0E (.arrive 15940 8) arriving = true := by decide +kernel
theorem test_landed : (after (.landed 15940 7) arriving).weir.landed = [15940] := by decide +kernel

/-- A cluster whose scoreboard entry 3 is armed for row 2 of A-mem. -/
def guarding : State :=
  running { cluster with
    a := [(0, 0x60400), (1, 3)],
    sb := [(3, { Score.reset with st := .armed, amem := true, first := 2, rows := 1, expect := 1, rel := 7 })] }

theorem witness_AddressRegistersAndNarrowAccess :
    canIssue (running cluster) 15940 .s1 = true ∧
    alone (running cluster) 15940 .s1 { isA := true, reg := 5, lat := 1 } = true ∧
    alone (running cluster) 15940 .s1 { isA := true, reg := 5, lat := 3 } = true ∧
    alone (running cluster) 15940 .s1 { isA := true, reg := 5, lat := 5 } = true ∧ rbOk true 0 = true ∧
    s1Addr 15940 true 0 0 { cl := issued (running cluster) 15940 .s1, bad := [] } = 0x80000 ∧ okAccess 0x80000 8 = true ∧
    guarded (issued (running cluster) 15940 .s1) 0x80000 8 = false ∧
    (issued (running cluster) 15940 .s1).s1Busy ≤ (running cluster).lc ∧
    s1Addr 15940 true 1 0 { cl := issued (running cluster) 15940 .s1, bad := [] } = 7 ∧ okAccess 7 8 = false ∧
    canIssue guarding 15940 .s1 = true ∧
    s1Addr 15940 true 0 0 { cl := issued guarding 15940 .s1, bad := [] } = 0x60400 ∧ okAccess 0x60400 8 = true ∧
    guarded (issued guarding 15940 .s1) 0x60400 8 = true := by decide +kernel
theorem test_lda :
    (clusterAt (after (.lda 15940 5 true 0 false true 0) (running cluster)) 15940).late = [(5, .a 5 0x22 true)] := by decide +kernel
theorem test_lda_bad_address : freezesWith 0x05 (.lda 15940 5 true 1 false true 0) (running cluster) = true := by decide +kernel
theorem test_lda_guarded : freezesWith 0x06 (.lda 15940 5 true 0 false false 0) guarding = true := by decide +kernel
theorem test_lda_raw : inSafe (after (.lda 15940 5 true 0 true false 0) guarding) = false := by decide +kernel
theorem test_stn :
    (clusterAt (after (.stn 15940 1 true 0 1) (running cluster)) 15940).late =
      [(2, .mem 0x80008 [5, 0, 0, 0, 0, 0, 0, 0] 1 true)] := by decide +kernel
theorem test_aop_min : (clusterAt (after (.aop 15940 5 1 4 1) (running cluster)) 15940).late = [(1, .a 5 5 false)] := by decide +kernel
theorem test_mova : (clusterAt (after (.mova 15940 5 2) (running cluster)) 15940).late = [(1, .a 5 0xFFFFFFFD false)] := by decide +kernel

theorem witness_AddressRegistersAndNarrowAccess_tables :
    s1Base 15940 true 1 { cl := issued (running cluster) 15940 .s1, bad := [] } = 7 ∧ okAccess 7 32 = false ∧
    okAccess 7 512 = false ∧ s1Base 15940 true 0 { cl := issued guarding 15940 .s1, bad := [] } = 0x60400 ∧
    okAccess 0x60400 32 = true ∧ 0x60400 < pBase ∧ guarded (issued guarding 15940 .s1) 0x60400 32 = true ∧
    guarded (issued guarding 15940 .s1) 0x60400 512 = true := by decide +kernel
theorem test_tload_guarded : freezesWith 0x06 (.tload 15940 0 false true 0) guarding = true := by decide +kernel
theorem test_gload_bad_address : freezesWith 0x05 (.gload 15940 0 true 1) (running cluster) = true := by decide +kernel

/-- a0 at a row of W-mem, where a table image fits. -/
def tableReady : State := running { cluster with a := [(0, 0x40000)] }

theorem witness_TablesAndGenerators :
    canIssue tableReady 15940 .s1 = true ∧ rbOk true 0 = true ∧
    (issued tableReady 15940 .s1).s1Busy ≤ tableReady.lc + 1 ∧
    s1Base 15940 true 0 { cl := issued tableReady 15940 .s1, bad := [] } = 0x40000 ∧
    okAccess 0x40000 32 = true ∧ guarded (issued tableReady 15940 .s1) 0x40000 32 = false ∧
    canIssueVec (running cluster) 15940 0 = true ∧ aloneV (running cluster) 15940 0 6 4 = true ∧
    vecAddress (running cluster) 15940 0 { addr := 0x80000, width := 0, step := 0 } = 0x80000 ∧ okAccess 0x80000 32 = true ∧
    guarded (clusterAt (running cluster) 15940) 0x80000 32 = false ∧
    (clusterAt (running cluster) 15940).upsets = [] ∧ (clusterAt (running cluster) 15940).late = [] ∧ 0x40000 < pBase ∧
    (cluster.upsets = [] ∧ Tab.wf VecCore.reset cluster.vecs = true) := by decide +kernel
theorem witness_TablesAndGenerators_rows :
    ∀ j, j < 9 → okAccess (0x40000 + 512 * j) 512 = true ∧ guarded (issued tableReady 15940 .s1) (0x40000 + 512 * j) 512 = false := by
  decide +kernel
theorem test_tload :
    (clusterAt (after (.tload 15940 0 true true 0) tableReady) 15940).s1Busy = 10 ∧
    (vecCore 0 (clusterAt (after (.tload 15940 0 true true 0) tableReady) 15940)).der.loadTo = 34 := by decide +kernel
theorem test_gload : (clusterAt (after (.gload 15940 2 true 0) tableReady) 15940).late = [(1, .gread 2 0x40000)] := by decide +kernel
theorem test_s1_end : (clusterAt (after (.s1End 15940) (running cluster)) 15940).s1.st = .stopped := by decide +kernel
theorem test_gdraw_advances :
    ((clusterAt (after (.gdraw 15940 0 4 0 true) (running cluster)) 15940).late.map Prod.fst) = [6, 1] := by decide +kernel

/-! ## Vector instructions -/

/-- 32 lanes of one word. -/
def allLanes (x : W32) : Lanes := mkLanes (fun _ => x)

/-- A vector core with 1.0, 2.0, −3.0, a NaN and the largest value in v1 to v5, lane numbers in v6, and 0x0000FFFF in m1. -/
def vecs : VecCore :=
  { VecCore.reset with
    pc := 0x900, st := .issuing,
    v := [(1, allLanes 0x3F800000), (2, allLanes 0x40000000), (3, allLanes 0xC0400000), (4, allLanes 0x7FA00001),
          (5, allLanes 0x7F7FFFFF), (6, mkLanes (fun l => BitVec.ofNat 32 l))],
    m := [(1, 0x0000FFFF)], dig := 0x1234, gen := { GenState.reset with seed := 5 } }

/-- A run of that core. -/
def vrun : State := running { cluster with vecs := [(0, vecs)] }

/-- The results on their way after a command: lc, register, lane 0 and mask. -/
def laneZero (i : Instr) (s : State) : List (Nat × Nat × W32 × W32) :=
  (clusterAt (after i s) 15940).late.filterMap (fun e =>
    match e.2 with | .v _ r x m => some (e.1, r, lane x 0, m) | .m _ r x m => some (e.1, r, x, m) | _ => none)

theorem witness_VectorFloatResults :
    canIssueVec vrun 15940 0 = true ∧ aloneV vrun 15940 0 4 31 = true ∧ aloneV vrun 15940 0 2 31 = true ∧
    (f32 0x7FA00001).isNaN = true ∧ (f32 0x3F800000).isNaN = false := by decide +kernel
/-- 1 + 2 = 3; 1 × 2 + (−3) = −1; the largest value doubled overflows; a NaN becomes the canonical one (R50, R53, R63). -/
theorem test_fadd : laneZero (.fadd 15940 0 7 1 2 1) vrun = [(4, 7, 0x40400000, 0x0000FFFF)] := by decide +kernel
theorem test_fma : laneZero (.fma 15940 0 7 1 2 3 0) vrun = [(4, 7, 0xBF800000, 0xFFFFFFFF)] := by decide +kernel
theorem test_fnms : laneZero (.fnms 15940 0 7 1 2 3 0) vrun = [(4, 7, 0x3F800000, 0xFFFFFFFF)] := by decide +kernel
theorem test_fmul_overflows : laneZero (.fmul 15940 0 7 5 2 0) vrun = [(4, 7, 0x7F800000, 0xFFFFFFFF)] := by decide +kernel
theorem test_fmin_nan : laneZero (.fmin 15940 0 7 4 2 0) vrun = [(2, 7, 0x7FC00000, 0xFFFFFFFF)] := by decide +kernel

theorem witness_VectorBitAndMaskResults :
    canIssueVec vrun 15940 0 = true ∧ aloneV vrun 15940 0 2 31 = true ∧ aloneV vrun 15940 0 3 31 = true ∧
    aloneV vrun 15940 0 3 8 = true ∧ aloneV vrun 15940 0 3 9 = true ∧ (8 : BitVec 5).toNat % 2 = 0 ∧ (31 : BitVec 8).toNat < 32 ∧
    (7 : BitVec 5).toNat < 8 ∧ aloneM vrun 15940 0 2 0 = true ∧ aloneM vrun 15940 0 2 7 = true ∧
    aloneM vrun 15940 0 4 7 = true := by decide +kernel
theorem test_fneg_keeps_nan : laneZero (.fneg 15940 0 7 4 0) vrun = [(2, 7, 0xFFA00001, 0xFFFFFFFF)] := by decide +kernel
theorem test_isub : laneZero (.isub 15940 0 7 0 1 0) vrun = [(2, 7, 0xC0800000, 0xFFFFFFFF)] := by decide +kernel
theorem test_isar : laneZero (.isar 15940 0 7 3 0 0) vrun = [(2, 7, 0xC0400000, 0xFFFFFFFF)] := by decide +kernel
theorem test_perm_reverse : laneZero (.perm 15940 0 7 6 0 0) vrun = [(3, 7, 31, 0xFFFFFFFF)] := by decide +kernel
theorem test_perm_swap : laneZero (.perm 15940 0 7 6 0 5) vrun = [(3, 7, 16, 0xFFFFFFFF)] := by decide +kernel
theorem test_bcast : laneZero (.bcast 15940 0 7 6 0 31) vrun = [(3, 7, 31, 0xFFFFFFFF)] := by decide +kernel
theorem test_sel : laneZero (.sel 15940 0 7 1 2 1 0) vrun = [(2, 7, 0x3F800000, 0xFFFFFFFF)] := by decide +kernel
theorem test_fcmp_lt : laneZero (.fcmp 15940 0 2 3 1 1 1) vrun = [(2, 2, 0xFFFFFFFF, 0x0000FFFF)] := by decide +kernel
theorem test_fcmp_unordered : laneZero (.fcmp 15940 0 2 4 1 1 4) vrun = [(2, 2, 0xFFFFFFFF, 0x0000FFFF)] := by decide +kernel
theorem test_cvts : laneZero (.cvts 15940 0 2 3 0) vrun = [(4, 2, 0xFFFFFFFF, 0xFFFFFFFF)] := by decide +kernel
theorem test_wadd : laneZero (.wadd 15940 0 8 2 2 0) vrun = [(3, 8, 0x80000000, 0xFFFFFFFF), (3, 9, 0xFFFF8080, 0xFFFFFFFF)] ∨
    laneZero (.wadd 15940 0 8 2 2 0) vrun = [(3, 8, 0x80000000, 0xFFFFFFFF), (3, 9, 0, 0xFFFFFFFF)] := by decide +kernel

theorem witness_LaneReductions : canIssueVec vrun 15940 0 = true ∧ aloneV vrun 15940 0 10 31 = true := by decide +kernel
/-- 32 lanes of 1.0 are 32.0, the 16 lanes that m1 selects 16.0, written to lane 0 alone (R64). -/
theorem test_rsum : laneZero (.rsum 15940 0 7 1 0) vrun = [(10, 7, 0x42000000, 1)] := by decide +kernel
theorem test_rsum_masked : laneZero (.rsum 15940 0 7 1 1) vrun = [(10, 7, 0x41800000, 1)] := by decide +kernel
theorem test_rmin_of_none :
    laneZero (.rmin 15940 0 7 1 2) vrun = [(10, 7, 0x7F800000, 1)] := by decide +kernel

/-- A table image of kind 0 with BASE 0 and SCALE 1: segment 1 is 1 + 2t, and nothing else is set (R65 to R67). -/
def tableImage : Mem := [(0x12, 0x80), (0x13, 0x3F), (0x17, 0x40), (4106, 0x80), (4107, 0x3F)]
def table : TableUnit := { img := tableImage, loadFrom := 0, loadTo := 0 }
def tabled : State := running { cluster with vecs := [(0, { vecs with fwd := table, der := table })] }

theorem witness_TableEvaluation :
    canIssueVec tabled 15940 0 = true ∧ tabLoading tabled.lc table = false ∧ tabOk (tabDesc table) = true ∧
    aloneV tabled 15940 0 9 31 = true ∧ aloneV tabled 15940 0 12 31 = true ∧
    tabPos (tabDesc table) 0x3FC00000 = .seg 1 (f32 0x3F000000) 0 ∨
    tabPos (tabDesc table) 0x3FC00000 = .seg 1 (.fin false 4194304 (-23)) 0 := by decide +kernel
theorem witness_TableEvaluation_positions :
    tabKind (tabDesc table) = 0 ∧ tabEdge (tabDesc table) = 0 ∧ (f32 0x7FA00001).isNaN = true ∧
    f32 (fmul32 (fsub32 0xFF800000 (tabBase (tabDesc table))).bits (tabScale (tabDesc table))).bits = .inf true ∧
    f32 (fmul32 (fsub32 0x7F800000 (tabBase (tabDesc table))).bits (tabScale (tabDesc table))).bits = .inf false ∧
    (let w := f32 (fmul32 (fsub32 0xC0400000 (tabBase (tabDesc table))).bits (tabScale (tabDesc table))).bits
     w.finite = true ∧ floorVal w < 0) ∧
    (let w := f32 (fmul32 (fsub32 0x43800000 (tabBase (tabDesc table))).bits (tabScale (tabDesc table))).bits
     w.finite = true ∧ floorVal w = 256) ∧
    (let w := f32 (fmul32 (fsub32 0x437F0000 (tabBase (tabDesc table))).bits (tabScale (tabDesc table))).bits
     w.finite = true ∧ floorVal w = 255) := by decide +kernel
/-- At 1.5 the table is 1 + 2 × 0.5 = 2 (R66, R67). -/
theorem test_teval : (tabEval table 0x3FC00000).bits = 0x40000000 := by decide +kernel
theorem test_teval_runs : inSafe (after (.teval 15940 0 7 1 0 0) tabled) = false := by decide +kernel

/-- The same core with results that land in v2 and v3 four lc on. -/
def twoLate : State := running { cluster with vecs := [(0, vecs)], late := [(6, .v 0 9 Lanes.zero 0)] }

theorem witness_Conversions :
    canIssueVec vrun 15940 0 = true ∧ cvtOk 2 1 1 = true ∧ cvtOk 2 3 0 = true ∧ cvtOk 0x0C 2 0 = true ∧
    aloneV vrun 15940 0 4 31 = true ∧ aloneV vrun 15940 0 6 7 = true ∧ aloneV vrun 15940 0 6 8 = true ∧
    isMx 5 = true ∧ isMx 7 = true ∧ (7 : BitVec 5) ≠ 8 ∧ (8 : BitVec 5).toNat % 2 = 0 ∧ aloneV vrun 15940 0 4 8 = true ∧
    aloneV vrun 15940 0 4 9 = true ∧ (f32 (lane (vOf vrun 15940 0 1) 0)).finite = true ∧
    (f32 (lane (vOf vrun 15940 0 1) 0)).isZero = false ∧ (f32 (lane (vOf vrun 15940 0 1) 0)).negative = false ∧
    (f32 (lane (vOf vrun 15940 0 4) 0)).finite = false ∧ (f32 (lane (vOf vrun 15940 0 0) 0)).isZero = true ∧
    (f32 (lane (vOf vrun 15940 0 3) 0)).negative = true ∧ ([1, 2] : List Nat).length ≠ 32 ∧
    (List.range 32).length = 32 ∧ 1 ∈ [1, 2, 3, 4, 5, 6, 7] := by decide +kernel
/-- 1.0 is 0x3F80 in BF16, two elements to a lane (R43, R44); −3.0 on a grid of 1.0 is −3 × 2^16 (R71). -/
theorem test_cvt_bf16 : laneZero (.cvt 15940 0 7 1 0 2 1 0) vrun = [(4, 7, 0x3F803F80, 0xFFFFFFFF)] := by decide +kernel
theorem test_cvtg : laneZero (.cvtg 15940 0 8 3 1 0) vrun = [(4, 8, 0xFFFD0000, 0xFFFFFFFF), (4, 9, 0xFFFFFFFF, 0xFFFFFFFF)] := by
  decide +kernel
theorem test_cvtg_bad_scale : freezesWith 0x0A (.cvtg 15940 0 8 1 0 0) vrun = true := by decide +kernel
theorem test_cvtsf : laneZero (.cvtsf 15940 0 7 1 0) vrun = [(4, 7, 0xBF800000, 0xFFFFFFFF)] := by decide +kernel
/-- A block of 1.0 has scale exponent 0 − 8, code 119, and elements 2^8, code 0x78 in MXFP8 (R46). -/
theorem test_cvtmx : laneZero (.cvtmx 15940 0 7 1 8 0 5 0) vrun =
    [(6, 7, 0x78787878, 0xFFFFFFFF), (6, 8, 119, 0xFFFFFFFF)] := by decide +kernel
theorem test_cvtxf :
    laneZero (.cvtxf 15940 0 7 6 6 0 5) vrun = [(6, 7, 0, 0xFFFFFFFF)] := by decide +kernel

theorem witness_SignCountsAndDigests :
    canIssueVec vrun 15940 0 = true ∧ (f32 (fadd32 0xC0400000 0x3F800000).bits).finite = true ∧
    (f32 (fadd32 0xC0400000 0x3F800000).bits).negative = true ∧ (f32 (fadd32 0x3F800000 0x3F800000).bits).negative = false ∧
    (f32 (fadd32 0x7FA00001 0x3F800000).bits).finite = false ∧ (f32 (lane (vOf vrun 15940 0 1) 0)).finite = true ∧
    (f32 (lane (vOf vrun 15940 0 1) 0)).negative = false ∧ (7 : BitVec 5) ≠ 8 ∧ aloneV vrun 15940 0 6 7 = true ∧
    aloneV vrun 15940 0 6 8 = true ∧ (f32 (lane (vOf vrun 15940 0 4) 0)).finite = false ∧
    (f32 (lane (vOf vrun 15940 0 3) 0)).negative = true ∧ (1 : BitVec 4) ≠ 0 ∧ TileState.reset.s = 0 ∧
    TileState.reset.words = 0 ∧ (allLanes 3).length = 32 := by decide +kernel
/-- −3 + 1 is below zero: the count goes down, and the scale 1.0 moves the sum to −1 (R72). -/
theorem test_sign_count : signCount 0xC0400000 0x3F800000 5 0x3F800000 = (0xBF800000, 4, false) := by decide +kernel
theorem test_scnt_bad_scale : freezesWith 0x0A (.scnt 15940 0 7 1 1 8 3 0) vrun = true := by decide +kernel
theorem test_dbegin :
    (vecCore 0 (clusterAt (after (.dbegin 15940 0 6) vrun) 15940)).tile =
      { TileState.reset with row := 1, col := 2, fmt := 3, inProg := true } := by decide +kernel
theorem test_dend : (clusterAt (after (.dend 15940 0) vrun) 15940).late.map Prod.fst = [12] := by decide +kernel

/-- A run with a row in the matrix-to-vector queue, a full vector-to-matrix queue, and bytes at the start of P-mem. -/
def queued : State :=
  running { cluster with
    vecs := [(0, vecs)], mvq := [zeros 64], vmq := List.replicate 64 (zeros 32), mem := [(0xE0001, 0x12)] }

theorem witness_VectorMemoryAndQueues :
    canIssueVec queued 15940 0 = true ∧ vecAddress queued 15940 0 { addr := 0xE0000, width := 0, step := 1 } = 0xE0000 ∧
    vecWidth 0 = some 8 ∧ vecWidth 3 = some 128 ∧ okAccess 0xE0000 128 = true ∧
    guarded (clusterAt queued 15940) 0xE0000 128 = false ∧ aloneV queued 15940 0 6 7 = true ∧
    (clusterAt queued 15940).upsets = [] ∧ 0xE0000 % 16 = 0 ∧ pBase ≤ 0xE0000 ∧ 0xE0000 + 16 ≤ dataSize ∧
    (clusterAt queued 15940).mvq = [zeros 64] ∧ aloneV queued 15940 0 2 7 = true ∧
    (clusterAt vrun 15940).mvq = [] ∧ (clusterAt vrun 15940).vmq.length < 64 ∧
    64 ≤ (clusterAt queued 15940).vmq.length := by decide +kernel
theorem witness_VectorMemoryAndQueues_guarded :
    canIssueVec guarding 15940 0 = true ∧
    vecAddress guarding 15940 0 { addr := 0x60400, width := 3, step := 0 } = 0x60400 ∧
    okAccess 0x60400 128 = true ∧ guarded (clusterAt guarding 15940) 0x60400 128 = true := by decide +kernel
theorem witness_VectorMemoryAndQueues_generator :
    vecAddress queued 15940 0 { addr := 0xE0000, width := 0, step := 0 } = 0xE0000 ∧ okAccess 0xE0000 32 = true ∧
    guarded (clusterAt queued 15940) 0xE0000 32 = false ∧ (clusterAt queued 15940).late = [] ∧
    aloneV queued 15940 0 6 4 = true ∧ okAccess 0xE0004 32 = false ∧
    vecAddress guarding 15940 0 { addr := 0x60400, width := 0, step := 0 } = 0x60400 ∧
    guarded (clusterAt guarding 15940) 0x60400 32 = true := by decide +kernel
theorem test_ld : laneZero (.ld 15940 0 7 0 { addr := 0xE0000, width := 3, step := 0 }) queued =
    [(6, 7, 0x1200, 0xFFFFFFFF)] := by decide +kernel
theorem test_ld_guarded : freezesWith 0x06 (.ld 15940 0 7 0 { addr := 0x60400, width := 3, step := 0 }) guarding = true := by
  decide +kernel
theorem test_st : (clusterAt (after (.st 15940 0 1 { addr := 0xE0000, width := 0, step := 0 }) queued) 15940).late =
    [(3, .mem 0xE0000 [0, 0, 0x80, 0x3F, 0, 0, 0x80, 0x3F] 1 true)] := by decide +kernel
theorem test_pop : laneZero (.pop 15940 0 7 0 true) queued = [(2, 7, 0, 0xFFFF0000)] := by decide +kernel
theorem test_pop_empty : freezesWith 0x03 (.pop 15940 0 7 0 true) vrun = true := by decide +kernel
theorem test_push_full : freezesWith 0x03 (.push 15940 0 1) queued = true := by decide +kernel

/-! ## The lattice mesh -/

/-- Route entry 0 passes the flit of the west input on to the east and writes it to local address 0x60000; the entries
after it do nothing (R131, R138). -/
def passEntry : W64 := BitVec.ofNat 64 (4 * 2 ^ 58 + 4 * 2 ^ 49 + 0x3000 * 2 ^ 10)

/-- A router that steps entry 0 in lc 0. -/
def routing : State :=
  running { cluster with rt0 := [(0, passEntry)], pos := { SlotPos.reset with run := true } }

/-- A data flit of value 5. -/
def five : Flit := dataFlit 5
/-- A flit that crosses with margin to spare (R375). -/
def sound (f : Flit) : Crossing := { flit := f, lowMargin := false }

theorem witness_RoutersPassSoundFlits :
    isCluster 15940 = true ∧ latticeRuns routing = true ∧ inPresent 15940 .west = true ∧ routerDone 15940 routing = false ∧
    (let cl := clusterAt routing 15940
     let ent := routeEntry cl cl.pos.bank
     let e := ent cl.pos.entry
     cl.pos.steps routing.lc = true ∧ routeReserved e = false ∧ usesAdder e = false ∧ usesRead e = false ∧
     slotLand e = false ∧ usesRead (ent ((((cl.pos.advance ent).advance ent).advance ent).advance ent).entry) = false ∧
     cl.ctlUpsets = [] ∧ srcLocal e = 4 ∧ waddr e = 0x3000 ∧
     flitKind (flitAt (presentFlit 15940 .west five routing) 15940 .west 0) = 1 ∧
     (dirs.all (fun d => !flitError (flitAt (presentFlit 15940 .west five routing) 15940 d 0) &&
       (flitKind (flitAt (presentFlit 15940 .west five routing) 15940 d 0) == 0 || selectsInput e (dirNum d + 1)))) = true) ∧
    outLink 15940 .east = some (15941, 2) := by decide +kernel
theorem witness_RoutersPassSoundFlits_faults :
    flitError { data := 5, side := 0x40000000 } = true ∧ ({ flit := five, lowMargin := true } : Crossing).lowMargin = true ∧
    (clusterAt (running cluster) 15940).pos.steps 0 = false ∧ flitKind five ≠ 0 ∧ routerDone 15940 (running cluster) = false ∧
    latticeRuns (running cluster) = true ∧ (15 : Nat) < 16 := by decide +kernel
/-- The flit is in flight to the eastern neighbour, two lc on, and its bytes commit at the end of this lc (R136, R138). -/
theorem test_flit_passes :
    (after (.flit 15940 .west (sound five)) routing).wires = [{ dst := 15941, inp := .west, due := 2, flit := five, src := 0 }] ∧
    (clusterAt (after (.flit 15940 .west (sound five)) routing) 15940).late.map Prod.fst = [1] := by decide +kernel
theorem test_flit_wrong_check : freezesWith 0x0C (.flit 15940 .west (sound { data := 5, side := 0x40000000 })) routing = true := by
  decide +kernel
theorem test_stray_flit : freezesWith 0x0C (.flit 15940 .west (sound five)) (running cluster) = true := by decide +kernel
/-- CRC-8 with polynomial 0x07 of the nine ASCII digits is 0xF4 (the check value of CRC-8, R135). -/
theorem test_crc8 : crc8 (ascii "123456789") = 0xF4 := by decide +kernel

/-- A cluster at a landing slot with row 2 of A-mem complete in the landing queue, and entry 3 armed for it. -/
def landing : State :=
  running { cluster with
    rt0 := [(0, 0x0000010000000000)], pos := { SlotPos.reset with run := true },
    sb := [(3, { Score.reset with st := .armed, amem := true, first := 2, rows := 1, expect := 1, rel := 7, gated := true })],
    land := [{ amem := true, row := 2, parts := (List.range 16).map (fun i => (i, some 1)), order := 1, src := 0 }], landSeq := 1 }

/-- The same without the scoreboard entry, and with the entry and no row. -/
def landUnarmed : State :=
  running { clusterAt landing 15940 with sb := [] }
def landEmpty : State :=
  running { clusterAt landing 15940 with land := [] }

theorem witness_LandingQueue :
    routerDone 15940 landing = false ∧
    (let cl := clusterAt landing 15940
     let ent := routeEntry cl cl.pos.active
     let e := ent cl.pos.entry
     cl.pos.steps landing.lc = true ∧ routeReserved e = false ∧ slotLand e = true ∧
     (List.range 8).all (fun i => i == 0 || !selects e i) = true ∧
     usesRead (ent ((((cl.pos.advance ent).advance ent).advance ent).advance ent).entry) = false ∧ cl.ctlUpsets = [] ∧
     landing.wires = [] ∧ (firstComplete cl.land).map (fun b => (b.amem, b.row)) = some (true, 2) ∧
     rowArmed cl true 2 = true ∧ Tab.wf Score.reset cl.sb = true) ∧
    rowArmed (clusterAt landUnarmed 15940) true 2 = false ∧ firstComplete (clusterAt landEmpty 15940).land = none ∧
    (clusterAt landEmpty 15940).sb.any (fun x => x.2.st == SbSt.armed && x.2.gated) = true := by decide +kernel
theorem witness_LandingQueue_counts :
    let e := Tab.get Score.reset (clusterAt landing 15940).sb 3
    (e.st = .armed ∧ e.amem = true ∧ e.first ≤ 2 ∧ 2 < e.first + e.rows) ∧ ¬(2 = 3 ∧ e.first ≤ 3) := by decide +kernel
theorem test_landing_write :
    (clusterAt (after (.landingWrite 15940) landing) 15940).land = [] ∧
    (clusterAt (after (.landingWrite 15940) landing) 15940).late.map Prod.fst = [1, 1] := by decide +kernel
theorem test_landing_unarmed : freezesWith 0x07 (.landingWrite 15940) landUnarmed = true := by decide +kernel
theorem test_landing_empty : freezesWith 0x07 (.landingWrite 15940) landEmpty = true := by decide +kernel
theorem test_land_counts :
    (Tab.get Score.reset (landCount true 2 (clusterAt landing 15940)).sb 3).st = .done := by decide +kernel

/-- Gate 4 of stack 0 at an entry of some ACT. -/
def gate (act : Nat) : Gate :=
  { id := ⟨true, 0, 4⟩, bank0 := [BitVec.ofNat 64 (act * 2 ^ 61)], bank1 := [], pos := { SlotPos.reset with run := true } }

/-- A run with that gate, a staged row, and a data flit on its way south through it. -/
def gated (act : Nat) : State :=
  { running cluster with
    gates := [gate act],
    wires := [{ dst := gateNorth ⟨true, 0, 4⟩, inp := .south, due := 1, flit := five, src := 0 },
              { dst := gateSouth ⟨true, 0, 4⟩, inp := .north, due := 1, flit := five, src := 0 }],
    tier := { Tier.reset with stages := [(stageKey 0 false 0,
      { StageList.none with st := .executing, rows := [(false, 3, zeros 512), (false, 4, zeros 512)], total := 1 })] } }

/-- The same with nothing staged. -/
def unstaged : State := { gated 1 with tier := Tier.reset }

theorem witness_GatesInjectAndExtract :
    gateExists ⟨true, 0, 4⟩ = true ∧ latticeRuns (gated 1) = true ∧ gateAt (gated 1) ⟨true, 0, 4⟩ = some (gate 1) ∧
    gateDone ⟨true, 0, 4⟩ (gated 1) = false ∧ (gate 1).pos.steps 0 = true ∧ gateActive (gate 1) = true ∧
    gateAct (gateEntry (gate 1) false 0) = 1 ∧ gateAct (gateEntry (gate 3) false 0) = 3 ∧
    gateAt (gated 3) ⟨true, 0, 4⟩ = some (gate 3) ∧
    (stageAt (gated 1) (stageKey 0 false 0)).rows = (false, 3, zeros 512) :: [(false, 4, zeros 512)] ∧
    (stageAt unstaged (stageKey 0 false 0)).rows = [] ∧
    (gated 3).wires.find? (fun x => x.dst == gateNorth ⟨true, 0, 4⟩ && x.inp == .south && x.due == 1) =
      some { dst := gateNorth ⟨true, 0, 4⟩, inp := .south, due := 1, flit := five, src := 0 } ∧
    gateFace (gateEntry (gate 3) false 0) = false ∧ 0 + 32 ≤ stackExtractSize := by decide +kernel
theorem test_gate_injects :
    ((after (.gateInject ⟨true, 0, 4⟩) (gated 1)).wires.map (fun x => x.due)) = [1, 1, 1] := by decide +kernel
theorem test_gate_extracts :
    (stageAt (after (.gateExtract ⟨true, 0, 4⟩) (gated 3)) (stageKey 0 true 0)).bytes = 5 :: zeros 31 := by decide +kernel

/-- Gate 4 of ring die 0, at an entry of some ACT for sluice 3 or extraction buffer 3. -/
def ringGate (act : Nat) : Gate :=
  { id := ⟨false, 0, 4⟩, bank0 := [BitVec.ofNat 64 (act * 2 ^ 61 + 3 * 2 ^ 40)], bank1 := [],
    pos := { SlotPos.reset with run := true } }
/-- A run with that gate, tile 0 of sluice 3 with some rows to go, some bytes in extraction buffer 3, and a flit on its way
north to the gate. -/
def ringGated (act : Nat) (rows : List Bytes) (buf : Bytes) (f : Flit) : State :=
  { running cluster with
    gates := [ringGate act],
    sluices := [(sluiceKey 0 3, { Sluice.reset with present := true, st := .draining, count := 1, rowStep := 32 })],
    wires := [{ dst := gateSouth ⟨false, 0, 4⟩, inp := .north, due := 6, flit := f, src := 0 }],
    rings := [(0, { Ring.reset with
      bufUsed := 16640, extract := [(3, buf)],
      waiting := if rows.isEmpty then [] else [{ sluice := 3, index := 0, next := 0, rows := rows, size := 16640 }] })] }
/-- Part of a tile goes, and its last flit. -/
def ringRow : State := ringGated 1 [zeros 64, zeros 512] [] five
def ringLast : State := ringGated 2 [zeros 32] [] five
def ringNone : State := ringGated 1 [] [] five
/-- A landing flit and a data flit reach an extracting gate. -/
def ringTakes : State := ringGated 3 [] [] five
def ringTorn : State := ringGated 3 [] [] (landFlit 5 true 2 0)

theorem witness_GatesInjectAndExtract_ring :
    gateExists ⟨false, 0, 4⟩ = true ∧ latticeRuns ringRow = true ∧ gateAt ringRow ⟨false, 0, 4⟩ = some (ringGate 1) ∧
    gateDone ⟨false, 0, 4⟩ ringRow = false ∧ (ringGate 1).pos.steps 0 = true ∧ gateActive (ringGate 1) = true ∧
    gateAct (gateEntry (ringGate 1) false 0) = 1 ∧ gateAct (gateEntry (ringGate 2) false 0) = 2 ∧
    gateAct (gateEntry (ringGate 3) false 0) = 3 ∧ bits (gateObj (gateEntry (ringGate 1) false 0)) 14 0 = 3 ∧
    gateFace (gateEntry (ringGate 1) false 0) = false ∧ (ringAt ringNone 0).waiting = [] ∧
    (∀ s ∈ [ringRow, ringLast], sluiceAt s (sluiceKey 0 3) ≠ Sluice.reset ∧
      (ringAt s 0).waiting.map (fun t => (t.sluice, t.index, t.rows.isEmpty)) =
        [(3, (sluiceAt s (sluiceKey 0 3)).landed - 0, false)]) := by decide +kernel
theorem witness_GatesInjectAndExtract_extract :
    ringTakes.wires.map (fun y => (y.dst, y.inp, y.due)) = [(gateSouth ⟨false, 0, 4⟩, .north, ringTakes.lc + 6)] ∧
    ringTakes.wires.all (fun y => flitKind y.flit == 1) = true ∧ ringTorn.wires.all (fun y => flitKind y.flit != 1) = true ∧
    (zeros 262112).length + 32 ≤ 262144 ∧ 262144 < (zeros 262113).length + 32 := by
  refine ⟨by decide +kernel, by decide +kernel, by decide +kernel, ?_, ?_⟩ <;> simp only [zeros, List.length_replicate] <;> omega
theorem test_ring_gate :
    (after (.gateInject ⟨false, 0, 4⟩) ringRow).wires.map (fun x => x.due) = [6, 6] ∧
    (ringAt (after (.gateInject ⟨false, 0, 4⟩) ringLast) 0).waiting = [] ∧
    Tab.get [] (ringAt (after (.gateExtract ⟨false, 0, 4⟩) ringTakes) 0).extract 3 = 5 :: zeros 31 ∧
    freezesWith 0x0D (.gateExtract ⟨false, 0, 4⟩) ringTorn = true := by decide +kernel

/-! ## Weirs -/

/-- The awaited weir has all its messages, conditions, digest reads and the decision. -/
def releasable : State :=
  { gathered with
    lc := 5, weir := { gathered.weir with latched := [0, 1], decided := true, digsDone := 1 } }

/-- The messages are there and the condition on the host is open. -/
def holding : State := { gathered with weir := { gathered.weir with latched := [0], eligible := true } }

/-- A run that awaits the final weir with a condition of weir 7 deferred to it. -/
def deferring : State :=
  { running cluster with
    weir := { WeirCtl.reset with
      phase := .beforeDue, await := 1,
      deferred := [{ index := 0, weirNum := 7, cond := { kind := 7, defer := true, obj := 0, arg := 0 }, latched := false }] } }

theorem witness_WeirReleases :
    (awaited gathered).map (fun e => (e.num, e.conds.length)) = some (7, 2) ∧
    condHolds gathered 7 { kind := 7, defer := true, obj := 0, arg := 0 } = true ∧
    condHolds gathered 7 { kind := 6, defer := true, obj := 0, arg := 0 } = false ∧
    gathered.weir.latched.contains 0 = false ∧ (awaited gathered).all (fun e => !releasesNow gathered e) = true ∧
    (awaited deferring).all (fun e => !releasesNow deferring e && e.num == 8) = true ∧
    (deferring.weir.deferred.find? (fun d => d.index == 0)).any (fun d => !d.latched) = true ∧
    (awaited gathered).all (fun e => !readyToRelease gathered e) = true ∧
    (awaited releasable).all (fun e => readyToRelease releasable e) = true ∧ (awaited releasable).isSome = true ∧
    releasable.weir.lastLc < releasable.lc ∧ (finishLc (feedDescs releasable)).2 = [] ∧
    latticeRuns (feedDescs releasable) = true ∧ latticeRuns (releaseLc (finishLc (feedDescs releasable)).1) = true := by
  decide +kernel
theorem test_condition_latches : (after (.conditionLatch false 0) gathered).weir.latched = [0] := by decide +kernel
theorem test_condition_open : exec (.conditionLatch false 1) gathered = .next gathered := by rfl
theorem test_deferred_latches :
    (after (.conditionLatch true 0) deferring).weir.deferred.all (fun d => d.latched) = true := by decide +kernel
theorem test_release :
    (after .release releasable).weir.await = 1 ∧ (after .release releasable).logs.weirCount = 1 ∧
    (after .release releasable).weir.phase = .released := by decide +kernel
theorem test_no_release : exec .release gathered = .next gathered := by rfl

/-- 127 lc after the release of weir 7, whose resume comes in the next lc. -/
def released : State :=
  { running { cluster with s0 := { cluster.s0 with st := .atWeir }, resumeMain := 0x108, resumeRelay := 0x180 } with
    lc := 127,
    weir := { WeirCtl.reset with
      phase := .released, await := 1, relIx := 0, relLc := 0, nextGear := 1,
      resumes := [{ at_ := 128, ix := 0, seg := false, gear := 1 }] } }

/-- A cluster resumed at a sentinel weir, its routine at an end, with the expected hash 0 in the scratch range. -/
def atRoutine : State :=
  running { cluster with
    s0 := { cluster.s0 with st := .atWeir }, weirSent := true, smem := directory ++ [(0x22, 8)] }

theorem witness_ClustersResume :
    inRun released = true ∧ State.canon released = true ∧
    released.weir.resumes.map (fun p => (p.at_, p.ix)) = [(released.lc + 1, 0)] ∧
    (weirAt released 0).map (fun e => e.num) = some 7 ∧ (participants released).Nodup ∧
    (awaited released).all (fun w => !releasesNow released w) = true ∧ (finishLc (feedDescs (latchAll released))).2 = [] ∧
    latticeRuns (feedDescs (latchAll released)) = true ∧
    (∀ c ∈ participants released, (clusterAt (finishLc (feedDescs (latchAll released))).1 c).ctlUpsets = []) ∧
    15940 ∈ participants released ∧ 15941 ∉ participants released ∧
    (clusterAt (finishLc (feedDescs (latchAll released))).1 15940).weirSent = false ∧ (running cluster).weir.resumes = [] ∧
    State.canon atRoutine = true ∧
    atSentinel atRoutine 15940 = true ∧ (clusterAt atRoutine 15940).s0.ready ≤ atRoutine.lc ∧
    leNat (Mem.read 0 (clusterAt atRoutine 15940).mem (sentScratch (clusterAt atRoutine 15940) + 0x1FF0) 16) = 0 := by
  decide +kernel
theorem test_resume :
    (clusterAt (after .resume released) 15940).s0.pc = 0x108 ∧
    (clusterAt (after .resume released) 15940).s0.st = .issuing ∧ (after .resume released).weir.gear = 1 := by decide +kernel

theorem witness_WeirDecisions :
    (awaited holding).all (fun e => relayOpen holding e) = true ∧ (awaited holding).isSome = true ∧
    holding.weir.eligible = true ∧ holding.weir.relayPosted = false ∧ gathered.weir.eligible = false ∧
    (awaited releasable).all (fun e => !relayOpen releasable e) = true ∧ gathers holding = true ∧ holding.weir.arrived ≠ [] ∧
    holding.weir.hold = false ∧ (awaited holding).all (fun e => !releasesNow holding e) = true ∧
    (awaited releasable).all (fun e => releasesNow releasable e) = true ∧ releasable.weir.arrived ≠ [] ∧
    gathers releasable = true ∧ mailboxUp holding = true ∧ inRun holding = true ∧ holding.weir.await < weirCount holding ∧
    arriving.weir.due = none ∧ arriving.weir.await < weirCount arriving ∧ mailboxUp arriving = true := by decide +kernel
theorem test_relay : (after .relayChoice holding).weir.relayPosted = true := by decide +kernel
theorem test_deadline : freezesWith 0x02 .weirDeadline holding = true := by decide +kernel
theorem test_deadline_with_release : exec .weirDeadline releasable = .next releasable := by rfl
theorem test_hold_withdraws :
    (after (.hold true) { arriving with weir := { arriving.weir with decided := true } }).weir.decided = false := by
  decide +kernel

/-- 128 lc after the release of the final weir. -/
def afterFinal : State := { finished with lc := 128 }

theorem witness_DigestsAndRunEnd :
    (awaited gathered).bind (fun e => e.digs[0]?) = some { tid := 9, x := 100, y := 45, addr := 0x80000 } ∧
    gathers gathered = true ∧ gathered.weir.due ≠ none ∧ gathered.weir.digsDone = 0 ∧
    (clusterAt gathered (cnum 100 45)).upsets = [] ∧ inRun afterFinal = true ∧ afterFinal.weir.phase = .released ∧
    weirCount afterFinal ≤ afterFinal.weir.relIx + 1 ∧ afterFinal.weir.relLc + 128 ≤ afterFinal.lc ∧
    afterFinal.tier.writes = [] ∧ checksPending afterFinal = false ∧
    auditOk afterFinal = true ∧ (∀ e ∈ afterFinal.queues, tqCountsOk e.2 = true) := by decide +kernel
theorem test_digest_read :
    (Tab.get DigestRec.zero (after (.digestRead 0) gathered).logs.digests 0) =
      { digest := 0x2200000011, tid := 9, weir := 7, step := 0 } := by decide +kernel
theorem test_run_end :
    (after .runEnd afterFinal).dev.st = .configured ∧ (after .runEnd afterFinal).cxl.msix = [0, 0, 0, 1] ∧
    (after .runEnd afterFinal).logs.eventCount = 1 := by decide +kernel

/-! ## Ports, sluices and shards -/

/-- A port of die 0 that is up, member 0 of a HEADGATE bundle, with job tag 5 and epoch 1. -/
def upPort : Port := { Port.reset with st := .up, role := 1, bundle := 1, tag := 5, epoch := 1 }

/-- The header of a plain bulk frame of that port with a 16,448-byte tile. -/
def tileHead (idx i : Nat) : Bytes := bulkHeader upPort 1 0 16448 idx i 0
/-- That frame as far as its tile header, and whole: a tile of zeros. -/
def tileBegun (idx i : Nat) : Bytes := tileHead idx i ++ zeros 64
def tileWhole (idx i : Nat) : Bytes := tileBegun idx i ++ zeros 16384
/-- A frame of a whole tile behind a header of `tileHead`, with nothing of it judged yet, comes whole. -/
theorem comesWhole_of {s : State} {p vl : Nat} {f : Bytes} (hn : f.length = 16480) (hf : frameSize f = 16480)
    (hh : (laneAt (portAt s p) vl).head = none) : comesWhole s p vl f :=
  ⟨by rw [hn]; decide, by simp [whole, hn, hf], hh⟩
theorem tileWhole_length : (tileWhole 3 1).length = 16480 := by
  have h : (tileBegun 3 1).length = 96 := by decide +kernel
  rw [tileWhole, List.length_append, h, zeros, List.length_replicate]
theorem tileWhole_size : frameSize (tileWhole 3 1) = 16480 := by decide +kernel

/-- A run with that port in a state. -/
def linked (q : Port) : State := { running cluster with ports := [(0, q)] }

/-- A sluice of 2 tiles of tensor 9 in units from 5 on. -/
def sluice (st : SluiceSt) : Sluice :=
  { Sluice.reset with present := true, units := true, st := st, count := 2, tid := 9, firstUnit := 5 }

/-- Sluice 3 of die 0 in a state, and the die. -/
def sluiced (x : Sluice) (r : Ring) : State :=
  { linked upPort with sluices := [(sluiceKey 0 3, x)], rings := if r = Ring.reset then [] else [(0, r)] }

/-- A landing buffer that is full. -/
def fullRing : Ring := { Ring.reset with bufUsed := landingSize }

/-- A die with a stalled tile frame for sluice 3. -/
def stalledRing : Ring := { Ring.reset with stalled := [{ port := 0, vl := 2, bytes := tileWhole 3 1 }] }

/-- A die with a tile of sluice 3 waiting to land. -/
def waitingRing : Ring :=
  { Ring.reset with waiting := [{ sluice := 3, index := 0, next := 0, rows := [zeros 512], size := 16480 }] }

theorem witness_SluicesParkAndDrain :
    admitsBulk (sluiced (sluice .closed) Ring.reset) 0 0 1 (tileWhole 3 1) ∧
    State.canon (sluiced (sluice .closed) Ring.reset) = true ∧
    admitsBulk (sluiced (sluice .closed) fullRing) 0 0 1 (tileWhole 3 1) ∧
    State.canon (sluiced (sluice .closed) fullRing) = true ∧
    sluiceOwner (sluiced (sluice .closed) fullRing) (0 / 2) (fIndex (tileWhole 3 1)) = 0 ∧
    (sluiceAt (sluiced (sluice .closed) fullRing) (sluiceKey 0 3)).present = true ∧
    (sluiceAt (sluiced (sluice .closed) fullRing) (sluiceKey 0 3)).st = .closed ∧
    bufferUsed (sluiced (sluice .closed) Ring.reset) 0 + reserved (tileWhole 3 1) ≤ landingSize ∧
    landingSize < bufferUsed (sluiced (sluice .closed) fullRing) 0 + reserved (tileWhole 3 1) ∧
    canReserve (sluiced (sluice .closed) stalledRing) 0 { port := 0, vl := 2, bytes := tileWhole 3 1 } = true ∧
    State.canon (sluiced (sluice .closed) stalledRing) = true ∧
    isSafe (sluiced (sluice .draining) waitingRing) = false ∧
    (ringAt (sluiced (sluice .draining) waitingRing) 0).waiting.any (fun t => t.sluice == 3) = true ∧
    (ringAt (sluiced (sluice .draining) Ring.reset) 0).waiting.any (fun t => t.sluice == 3) = false ∧
    (sluiceAt (sluiced (sluice .draining) Ring.reset) (sluiceKey 0 3)).st = .draining := by
  unfold admitsBulk; decide +kernel
theorem witness_SluicesParkAndDrain_stalled :
    (ringAt (sluiced (sluice .closed) stalledRing) 0).stalled.find? (canReserve (sluiced (sluice .closed) stalledRing) 0) =
      some { port := 0, vl := 2, bytes := tileWhole 3 1 } :=
  List.find?_cons_of_pos (by decide +kernel)
theorem witness_SluicesParkAndDrain_whole :
    comesWhole (sluiced (sluice .closed) Ring.reset) 0 0 (tileWhole 3 1) ∧
    comesWhole (sluiced (sluice .closed) fullRing) 0 0 (tileWhole 3 1) ∧ whole (tileWhole 3 1) = true ∧
    (sluiced (sluice .closed) fullRing).tier.writes = [] ∧ (sluiced (sluice .closed) stalledRing).tier.writes = [] :=
  ⟨comesWhole_of tileWhole_length tileWhole_size rfl, comesWhole_of tileWhole_length tileWhole_size rfl,
    (comesWhole_of (s := State.reset) (p := 0) (vl := 0) tileWhole_length tileWhole_size rfl).2.1, rfl, rfl⟩
theorem test_tile_parked :
    ((ringAt (after (.tile 0 0 (tileBegun 3 1)) (sluiced (sluice .closed) Ring.reset)) 0).parked.map (fun x => x.sluice)) = [3] ∧
    (ringAt (after (.tile 0 0 (tileBegun 3 1)) (sluiced (sluice .closed) Ring.reset)) 0).bufUsed = 16480 ∧
    ((ringAt (after (.tile 0 0 (tileBegun 3 1)) (sluiced (sluice .closed) fullRing)) 0).stalled.map (fun x => x.vl)) = [0] := by
  decide +kernel
theorem test_stalled_tile_is_parked :
    (let s := sluiced (sluice .closed) { Ring.reset with stalled := [{ port := 0, vl := 2, bytes := tileBegun 3 1 }] }
     (ringAt (after (.landingBufferReserve 0) s) 0).stalled = [] ∧
     ((ringAt (after (.landingBufferReserve 0) s) 0).parked.map (fun x => x.sluice)) = [3]) := by decide +kernel
theorem test_drained :
    (sluiceAt (after (.sluiceDrained 0 3) (sluiced (sluice .draining) Ring.reset)) (sluiceKey 0 3)).st = .closed ∧
    (sluiceAt (after (.sluiceDrained 0 3) (sluiced (sluice .draining) waitingRing)) (sluiceKey 0 3)).st = .draining := by
  decide +kernel

/-- A training port, and a LINK_INIT frame of port 3 of engine 0xABCD. -/
def trainingPort : Port := { upPort with st := .training }
/-- That port with the partner's LINK_INIT received. -/
def heardPort : Port := { trainingPort with initRx := true }
/-- That port with its own LINK_INIT sent. -/
def initPort : Port := { trainingPort with initSent := true }
/-- The partner's LINK_INIT. -/
def initOf : Bytes := controlFrame upPort 1 (toLe 8 0xABCD ++ [3])
/-- The partner's CEASE. -/
def ceaseOf : Bytes := controlFrame upPort 3 []

theorem witness_LinkComesUpAndCeases :
    (portAt (linked trainingPort) 0).st = .training ∧ (portAt (linked trainingPort) 0).txq = [] ∧
    (portAt (linked trainingPort) 0).initSent = false ∧ (portAt (linked trainingPort) 0).initRx = false ∧
    (portAt (linked trainingPort) 0).ctlq = [] ∧ (portAt (linked trainingPort) 0).retry.length < 4096 ∧
    (portAt (linked heardPort) 0).st = .training ∧ (portAt (linked heardPort) 0).txq = [] ∧
    (portAt (linked heardPort) 0).initSent = false ∧ (portAt (linked heardPort) 0).initRx = true ∧
    (portAt (linked initPort) 0).st = .training ∧ (portAt (linked initPort) 0).initSent = true ∧
    admitsControl (linked initPort) 0 1 initOf ∧ admitsControl (linked upPort) 0 3 ceaseOf ∧
    (portAt (linked upPort) 0).st = .up ∧ (linked upPort).queues = [] := by unfold admitsControl; decide +kernel
theorem test_pcs_lock :
    (portAt (after (.pcsLock 0) (linked trainingPort)) 0).initSent = true ∧
    ((portAt (after (.pcsLock 0) (linked trainingPort)) 0).retry.map (fun f => f.ch)) = [8] ∧
    (portAt (after (.pcsLock 0) (linked heardPort)) 0).st = .up := by decide +kernel
theorem test_link_init :
    (portAt (after (.linkInit 0 initOf) (linked initPort)) 0).st = .up ∧
    (portAt (after (.linkInit 0 initOf) (linked initPort)) 0).partnerId = 0xABCD ∧
    (portAt (after (.linkInit 0 initOf) (linked initPort)) 0).partnerPort = 3 := by decide +kernel
theorem test_cease : (portAt (after (.cease 0 ceaseOf) (linked upPort)) 0).st = .ceased := by decide +kernel

/-- A bulk flit of lane 2 with a sequence: its body padding. -/
def flitOfLane (seq : Nat) : Bytes := makeFlit 1 2 0 seq (zeros 240)
/-- The port after one duplicate could have arrived: lane 2 expects sequence 1. -/
def onePort : Port := setLane 2 { Lane.reset with expect := 1, fr := 1, freed := 1 } upPort

/-- The port with three flits of lane 2 occupied, of which nothing is needed. -/
def keptPort : Port := setLane 2 { Lane.reset with expect := 3, fr := 3, occ := 3 } upPort

theorem witness_FlitsAndAcknowledgements :
    streams (portAt (linked upPort) 0) = true ∧ flitBad true (flitOfLane 0) = true ∧
    flitBad false (flitOfLane 0) = false ∧ flitBad false (flitOfLane 1) = false ∧ State.canon (linked upPort) = true ∧
    State.canon (linked onePort) = true ∧ streams onePort = true ∧
    (portAt (linked onePort) 0).txq = [] ∧ (portAt (linked onePort) 0).ctlq = [] ∧
    bits (flitHeader (flitOfLane 0)) 1 0 = 1 ∧ bits (flitHeader (flitOfLane 0)) 35 34 = 0 ∧
    bit (flitHeader (flitOfLane 0)) 67 = false ∧ bits (flitHeader (flitOfLane 0)) 4 2 = 2 ∧
    bits (flitHeader (flitOfLane 1)) 33 10 = 1 ∧ (laneAt (portAt (linked onePort) 0) 2).expect = 1 ∧
    (laneAt (portAt (linked onePort) 0) 2).audit = none ∧ (laneAt (portAt (linked onePort) 0) 2).expect < 2 ^ 24 ∧
    bits (flitHeader (flitOfLane 0)) 33 10 = 0 ∧ laneHeld (linked keptPort) 0 2 = false ∧
    (laneBytes (portAt (linked keptPort) 0) 2 + 239) / 240 < (laneAt (portAt (linked keptPort) 0) 2).occ ∧
    State.canon (linked keptPort) = true ∧ (laneAt (portAt (linked onePort) 0) 2).occ = 0 ∧
    2 ^ 23 ≤ (0 + 2 ^ 24 - 1) % 2 ^ 24 := by decide +kernel
theorem test_flit_accepted :
    (laneAt (portAt (after (.portFlit 0 (flitOfLane 1) false) (linked onePort)) 0) 2).expect = 2 ∧
    (laneAt (portAt (after (.portFlit 0 (flitOfLane 1) false) (linked onePort)) 0) 2).fr = 2 := by decide +kernel
theorem test_flits_freed :
    (laneAt (portAt (freeLane 0 2 (linked keptPort)) 0) 2).freed = 3 ∧
    (portAt (freeLane 0 2 (linked keptPort)) 0).out.map (fun b => (bits (flitHeader b) 66 64, bits (flitHeader b) 83 68)) =
      [(2, 4099)] := by decide +kernel
theorem test_flit_duplicate :
    (portAt (after (.portFlit 0 (flitOfLane 0) false) (linked onePort)) 0).cnt.dupFlit = 1 ∧
    (portAt (after (.portFlit 0 (flitOfLane 0) true) (linked onePort)) 0).cnt.flitBad = 1 := by decide +kernel
theorem test_acknowledged :
    (ackFlits 2 7 { upPort with retry := [⟨2, 7, [], []⟩, ⟨2, 8, [], []⟩, ⟨8, 7, [], []⟩, ⟨2, 0xFFFFFF, [], []⟩] }).retry =
      [⟨2, 8, [], []⟩, ⟨8, 7, [], []⟩] := by decide +kernel

/-- The port with an unacknowledged flit and a number of replays just now. -/
def replayPort (n : Nat) : Port :=
  { upPort with retry := [⟨0, 0, [7], [(0, 1)]⟩], window := List.replicate n 0 }
/-- The port in a retrain that began while it was up, or CEASED. -/
def retrainPort (ceased : Bool) : Port := { replayPort 0 with st := .retraining, back := if ceased then .ceased else .up }

theorem witness_ReplayAndRetrain :
    State.canon (linked (replayPort 8)) = true ∧ streams (portAt (linked (replayPort 8)) 0) = true ∧
    (portAt (linked (replayPort 8)) 0).retry.any (fun f => f.ch == 0) = true ∧
    (portAt (linked (replayPort 8)) 0).retrained = none ∧
    8 ≤ ((portAt (linked (replayPort 8)) 0).window.filter
      (fun x => decide (nowNs (linked (replayPort 8)) < x + 40000))).length ∧
    ((portAt (linked (replayPort 7)) 0).window.filter
      (fun x => decide (nowNs (linked (replayPort 7)) < x + 40000))).length = 7 ∧
    State.canon (linked (retrainPort true)) = true ∧
    (portAt (linked (retrainPort true)) 0).st = .retraining ∧ (portAt (linked (retrainPort false)) 0).txq = [] ∧
    (portAt (linked (retrainPort false)) 0).initRx = false ∧ (portAt (linked (retrainPort false)) 0).ctlq = [] ∧
    (linked (retrainPort false)).queues = [] ∧ (portAt (linked upPort) 0).st ≠ .retraining := by decide +kernel
theorem test_ninth_replay :
    (portAt (after (.replayTimeout 0 0) (linked (replayPort 8))) 0).st = .retraining ∧
    (portAt (after (.replayTimeout 0 0) (linked (replayPort 7))) 0).st = .up ∧
    (portAt (after (.replayTimeout 0 0) (linked (replayPort 7))) 0).out = [[7]] := by decide +kernel
theorem test_retrain_complete :
    (portAt (after (.retrainComplete 0) (linked (retrainPort false))) 0).st = .up ∧
    (portAt (after (.retrainComplete 0) (linked (retrainPort true))) 0).st = .ceased := by decide +kernel
theorem test_port_down :
    (portAt (after (.portDown 0) (linked (retrainPort false))) 0).st = .down ∧
    (portAt (after (.portDown 0) (linked upPort)) 0).st = .up := by decide +kernel

/-- Lane 2 after 65,536 flits sent and 10 received and freed. -/
def auditPort : Port := setLane 2 { Lane.reset with fs := 65540, limit := 65536, audits := [(65536, 65536)], fr := 10, freed := 10 } upPort
/-- An AUDIT frame for a lane: FS and the limit. -/
def auditOf (v fs limit : Nat) : Bytes := controlFrame upPort 2 (toLe 1 v ++ zeros 3 ++ toLe 4 fs ++ toLe 4 limit)

theorem witness_CreditAudit :
    isSafe (linked auditPort) = false ∧ (portAt (linked auditPort) 0).st = .up ∧
    (laneAt (portAt (linked auditPort) 0) 2).audits = [(65536, 65536)] ∧ diff32 65536 65536 ≤ 0 ∧ (portAt (linked auditPort) 0).txq = [] ∧ (portAt (linked auditPort) 0).ctlq = [] ∧
    (portAt (linked auditPort) 0).retry.length < 4096 ∧ State.canon (linked auditPort) = true ∧
    admitsControl (linked auditPort) 0 2 (auditOf 2 10 4106) ∧ admitsControl (linked auditPort) 0 2 (auditOf 2 10 4107) ∧
    admitsControl (linked auditPort) 0 2 (auditOf 2 11 4106) ∧ fieldB (auditOf 2 11 4106) 8 1 = 2 ∧
    fieldB (auditOf 2 10 4106) 12 4 = 10 ∧
    auditHolds (laneAt (portAt (linked auditPort) 0) 2) 10 (fieldB (auditOf 2 10 4106) 16 4) = true ∧
    auditHolds (laneAt (portAt (linked auditPort) 0) 2) 10 (fieldB (auditOf 2 10 4107) 16 4) = false ∧
    (laneAt (portAt (linked auditPort) 0) 2).fr ≠ fieldB (auditOf 2 11 4106) 12 4 ∧ (linked auditPort).dev.st = .running := by
  unfold admitsControl; decide +kernel
theorem test_audit_sent :
    ((portAt (after (.auditSend 0 2) (linked auditPort)) 0).retry.map (fun f => (fieldB f.bytes 12 1, fieldB f.bytes 24 4))) =
      [(2, 65536)] := by decide +kernel
theorem test_audit_owed :
    (sentOn false { Lane.reset with fs := 65535, limit := 70000 }).audits = [(65536, 70000)] ∧
    (sentOn false { Lane.reset with fs := 65536 }).audits = [] := by decide +kernel
theorem test_no_audit_due : exec (.auditSend 0 3) (linked auditPort) = .next (linked auditPort) := by rfl
theorem test_audit_received :
    (after (.audit 0 (auditOf 2 10 4106)) (linked auditPort)).dev.st = .running ∧
    freezesWith 0x14 (.audit 0 (auditOf 2 10 4107)) (linked auditPort) = true ∧
    (laneAt (portAt (after (.audit 0 (auditOf 2 11 4106)) (linked auditPort)) 0) 2).audit = some (11, 4106) := by decide +kernel

/-- The conditions of `admitsBulk`, computed. -/
def admitsBulkB (s : State) (p vl ftype : Nat) (f : Bytes) : Bool :=
  decide (p < 24) && decide (vl < 8) && decide ((portAt s p).st ≠ .off) && decide ((portAt s p).st ≠ .down) &&
    decide (isSafe s = false) && decide (fieldB f 0 1 = ftype) && decide (frameError (portAt s p).role vl f = false) &&
    decide (passesFilter (portAt s p) f = true) && decide (fieldB f 1 1 = 0) && decide ((portAt s p).sealedReq = false) &&
    decide (bodyError f = false) && decide (Tab.wf Port.reset s.ports = true)
theorem admitsBulk_of {s : State} {p vl ftype : Nat} {f : Bytes} (h : admitsBulkB s p vl ftype f = true) :
    admitsBulk s p vl ftype f := by
  simp only [admitsBulkB, Bool.and_eq_true, decide_eq_true_eq, and_assoc] at h; exact h

/-- The conditions of `admitsControl`, computed. -/
def admitsControlB (s : State) (p ctype : Nat) (f : Bytes) : Bool :=
  decide (p < 24) && decide ((portAt s p).st ≠ .off) && decide ((portAt s p).st ≠ .down) && decide (isSafe s = false) &&
    decide (fieldB f 0 1 = ctype) && decide (3 ≤ ctype → passesFilter (portAt s p) f = true) &&
    decide (Tab.wf Port.reset s.ports = true)
theorem admitsControl_of {s : State} {p ctype : Nat} {f : Bytes} (h : admitsControlB s p ctype f = true) :
    admitsControl s p ctype f := by
  simp only [admitsControlB, Bool.and_eq_true, decide_eq_true_eq, and_assoc] at h; exact h

/-- A tile frame of tensor 9 as FP16, the payload zero. -/
def tile9 : Bytes := buildTile { tid := 9, version := 0, row := 0, col := 0, fmt := 1, shape := 1 } (zeros payloadSize) []
theorem tile9_good : tileGood tile9 = true :=
  tileGood_buildTile _ _ _ (by simp [zeros]) (by decide) (by decide) (by decide) (by decide) (by decide)
/-- The TILE frame that carries it for tile 1 of sluice 3. -/
def tileFrame9 : Bytes := tileHead 3 1 ++ tile9
theorem tileFrame9_body : fBody tileFrame9 = tile9 := by
  unfold fBody tileFrame9; exact List.drop_left' (by decide +kernel)

/-- A TILE frame for sluice 3 whose header fields are as given and whose body starts with a tensor and a version. -/
def tileStart (i tid version : Nat) : Bytes := tileHead 3 i ++ toLe 4 tid ++ toLe 6 version ++ zeros 54
/-- The same with its payload. -/
def tileRest (i tid version : Nat) : Bytes := tileStart i tid version ++ zeros 16384
theorem tileRest_whole {s : State} (i tid version : Nat) (h : (tileStart i tid version).length = 96)
    (hf : frameSize (tileRest i tid version) = 16480) (hh : (laneAt (portAt s 0) 0).head = none) :
    comesWhole s 0 0 (tileRest i tid version) := comesWhole_of (by rw [tileRest, List.length_append, h, zeros, List.length_replicate]) hf hh

/-- Sluice 3 open with tile 0 landed, with a version source. -/
def open3 (vsrc : Nat) : State := sluiced { sluice .opened with bits := [0], landed := 1, vsrc := vsrc, version := 4 } Ring.reset

theorem witness_FramesTurnedAway :
    (portAt (open3 0) 0).st ≠ .off ∧ (portAt (open3 0) 0).st ≠ .down ∧ Tab.wf Port.reset (open3 0).ports = true ∧
    isSafe { open3 0 with dev := { Dev.reset with st := .safe } } = true ∧
    frameError (portAt (open3 0) 0).role 6 (tileHead 3 1) = true ∧ frameError (portAt (open3 0) 0).role 0 (tileHead 3 1) = false ∧
    passesFilter (portAt (open3 0) 0) (tileHead 3 1) = true ∧
    passesFilter (portAt (linked { upPort with epoch := 2 }) 0) (tileHead 3 1) = false ∧
    fieldB (tileHead 3 1) 0 1 = 1 := by decide +kernel
theorem witness_FramesTurnedAway_sluice :
    admitsBulk (open3 0) 0 0 1 (tileRest 1 9 4) ∧ admitsBulk (open3 0) 0 0 1 (tileRest 2 9 4) ∧
    admitsBulk (open3 0) 0 0 1 (tileRest 1 8 4) ∧ admitsBulk (open3 1) 0 0 1 (tileRest 1 9 5) ∧
    admitsBulk (open3 1) 0 0 1 (tileRest 0 9 4) ∧ admitsBulk (linked upPort) 0 0 1 (tileRest 1 9 4) ∧
    (sluiceAt (linked upPort) (sluiceKey 0 3)).present = false ∧ (sluiceAt (open3 0) (sluiceKey 0 3)).st = .opened ∧
    (sluiceAt (open3 0) (sluiceKey 0 3)).count < fTile (tileRest 2 9 4) + 1 ∧ tTid (fBody (tileRest 1 8 4)) = 8 ∧
    (sluiceAt (open3 1) (sluiceKey 0 3)).vsrc ≠ 0 ∧ tVersion (fBody (tileRest 1 9 5)) = 5 ∧
    (sluiceAt (open3 1) (sluiceKey 0 3)).bits.contains (fTile (tileRest 0 9 4)) = true ∧
    (sluiceAt (sluiced (sluice .draining) waitingRing) (sluiceKey 0 3)).st = .draining ∧
    admitsBulk (sluiced (sluice .draining) waitingRing) 0 0 1 (tileRest 1 9 4) := by
  and_intros <;> first | exact admitsBulk_of (by decide +kernel) | decide +kernel
theorem witness_FramesTurnedAway_whole :
    comesWhole (open3 0) 0 0 (tileRest 1 9 4) ∧ comesWhole (open3 0) 0 0 (tileRest 2 9 4) ∧
    comesWhole (open3 0) 0 0 (tileRest 1 8 4) ∧ comesWhole (open3 1) 0 0 (tileRest 1 9 5) ∧
    comesWhole (open3 1) 0 0 (tileRest 0 9 4) ∧ comesWhole (linked upPort) 0 0 (tileRest 1 9 4) ∧
    comesWhole (sluiced (sluice .draining) waitingRing) 0 0 (tileRest 1 9 4) ∧ (open3 0).tier.writes = [] ∧
    (linked upPort).tier.writes = [] := by
  exact ⟨tileRest_whole _ _ _ (by decide +kernel) (by decide +kernel) rfl,
    tileRest_whole _ _ _ (by decide +kernel) (by decide +kernel) rfl,
    tileRest_whole _ _ _ (by decide +kernel) (by decide +kernel) rfl,
    tileRest_whole _ _ _ (by decide +kernel) (by decide +kernel) rfl,
    tileRest_whole _ _ _ (by decide +kernel) (by decide +kernel) rfl,
    tileRest_whole _ _ _ (by decide +kernel) (by decide +kernel) rfl,
    tileRest_whole _ _ _ (by decide +kernel) (by decide +kernel) rfl, rfl, rfl⟩
theorem witness_FramesTurnedAway_progress :
    headSize ≤ (tileStart 1 9 4).length ∧ whole (tileStart 1 9 4) = false ∧ State.canon (open3 0) = true ∧
    (laneAt (portAt (open3 0) 0) 0).head = none ∧ laneHeld (open3 0) 0 0 = false ∧
    (sluiceAt (open3 0) (sluiceKey 0 3)).units = true ∧ (sluiceAt (open3 0) (sluiceKey 0 3)).bits.contains 1 = false ∧
    indexBusy (open3 0) 0 3 1 1 = false ∧ fTile (tileStart 1 9 4) = 1 ∧ tTid (fBody (tileStart 1 9 4)) = 9 := by decide +kernel
theorem test_frame_in_progress :
    indexBusy (after (.tile 0 0 (tileStart 1 9 4)) (open3 0)) 0 3 1 1 = true ∧
    (sluiceAt (after (.tile 0 0 (tileStart 1 9 4)) (open3 0)) (sluiceKey 0 3)).landed = 1 := by decide +kernel
theorem test_tile_counts :
    (ringAt (after (.tile 0 0 (tileStart 1 9 4)) (linked upPort)) 0).cnt.sluIndex = 1 ∧
    (ringAt (after (.tile 0 0 (tileStart 2 9 4)) (open3 0)) 0).cnt.sluBounds = 1 ∧
    (ringAt (after (.tile 0 0 (tileStart 1 9 5)) (open3 1)) 0).cnt.sluVersion = 1 ∧
    (ringAt (after (.tile 0 0 (tileStart 0 9 4)) (open3 1)) 0).cnt.sluDup = 1 ∧
    (ringAt (after (.tile 0 0 (tileStart 0 9 4)) (sluiced (sluice .draining) waitingRing)) 0).cnt.sluLate = 1 := by
  decide +kernel
theorem test_tile_of_another_epoch :
    (portAt (after (.tile 0 0 (tileHead 3 1)) (linked { upPort with epoch := 2 })) 0).cnt.filterDrop = 1 ∧
    (portAt (after (.tile 0 6 (tileHead 3 1)) (linked upPort)) 0).cnt.frameBad = 1 := by decide +kernel

/-- Sluice 3 open on resident units 5 and 6, in slots 0 and 1 of stack 2. -/
def landingIn : State :=
  { sluiced { sluice .opened with bits := [0], landed := 1 } Ring.reset with
    tier := { Tier.reset with
      map := [(5, { MapEntry.reset with res := true, stack := 2 }), (6, { MapEntry.reset with res := true, stack := 2, slot := 1 })] } }

theorem witness_TileLandsInItsUnit_whole : comesWhole landingIn 0 0 tileFrame9 ∧ indexBusy landingIn 0 3 1 1 = false := by
  have hb : tile9.length = 16448 := by
    obtain ⟨head, hl, -, he⟩ := buildTile_split { tid := 9, version := 0, row := 0, col := 0, fmt := 1, shape := 1 } (zeros payloadSize) []
    have hp : (zeros payloadSize).length = 16384 := List.length_replicate ..
    unfold tile9; rw [he]; simp only [List.length_append, hl, hp, length_toLe, List.length_nil]
  have hh : (tileHead 3 1).length = 32 := by decide +kernel
  exact ⟨comesWhole_of (by rw [tileFrame9, List.length_append, hb, hh]) (by decide +kernel) rfl, by decide +kernel⟩
theorem witness_TileLandsInItsUnit :
    admitsBulk landingIn 0 0 1 tileFrame9 ∧ State.canon landingIn = true ∧ tileGood (fBody tileFrame9) = true ∧
    sluiceOwner landingIn (0 / 2) (fIndex tileFrame9) = 0 ∧ fIndex tileFrame9 = 3 ∧ fTile tileFrame9 = 1 ∧
    (sluiceAt landingIn (sluiceKey 0 3)).st = .opened ∧ isShard (sluiceAt landingIn (sluiceKey 0 3)) = false ∧
    1 < (sluiceAt landingIn (sluiceKey 0 3)).count ∧ tTid (fBody tileFrame9) = (sluiceAt landingIn (sluiceKey 0 3)).tid.toNat ∧
    (sluiceAt landingIn (sluiceKey 0 3)).bits.contains 1 = false ∧ landingIn.queues = [] ∧ (ringAt landingIn 0).reqs = [] ∧
    unitBar (sluiceAt landingIn (sluiceKey 0 3)).host (5 + 1) landingIn = none ∧
    (sluiceAt landingIn (sluiceKey 0 3)).landed + 1 = (sluiceAt landingIn (sluiceKey 0 3)).count := by
  refine ⟨?_, ?_, tileFrame9_body ▸ tile9_good, ?_⟩
  · exact admitsBulk_of (by decide +kernel)
  · decide +kernel
  · decide +kernel

/-- An open marker sluice of 2 markers. -/
def markers : State := sluiced { Sluice.reset with present := true, marker := true, st := .opened, count := 2 } Ring.reset
/-- A commit record sent on bundle 1. -/
def commit : Commit := { bundle := 1, version := 7, seq := 0, digest16 := zeros 16, final := true, acked := false }
/-- A run with that record. -/
def committing : State := { linked upPort with commits := [commit] }
/-- The answer to that record with a status, for a version. -/
def ackOf (version status : Nat) : Bytes := controlFrame upPort 7 (toLe 6 version ++ toLe 2 status ++ zeros 32)

theorem witness_ControlFramesTakeEffect :
    State.canon markers = true ∧ admitsControl markers 0 4 (controlFrame upPort 4 (toLe 2 3 ++ toLe 2 1)) ∧
    fieldB (controlFrame upPort 4 (toLe 2 3 ++ toLe 2 1)) 10 2 = 1 ∧ (sluiceAt markers (sluiceKey 0 3)).tid = 0 ∧
    (sluiceAt markers (sluiceKey 0 3)).bits.contains 1 = false ∧ 1 < (sluiceAt markers (sluiceKey 0 3)).count ∧
    sluiceOwner markers (0 / 2) (fieldB (controlFrame upPort 4 (toLe 2 3 ++ toLe 2 1)) 8 2 % 32768) = 0 ∧
    State.canon committing = true ∧ admitsControl committing 0 5 (controlFrame upPort 5 (zeros 40)) ∧
    admitsControl committing 0 7 (ackOf 7 0) ∧ admitsControl committing 0 7 (ackOf 7 2) ∧
    admitsControl committing 0 7 (ackOf 8 0) ∧
    committing.commits.any (commitMatches (portAt committing 0).bundle (ackOf 7 0)) = true ∧ fieldB (ackOf 7 2) 14 2 = 2 ∧
    committing.commits.any (commitMatches (portAt committing 0).bundle (ackOf 7 2)) = true ∧ inRun committing = true ∧
    committing.commits.any (commitMatches (portAt committing 0).bundle (ackOf 8 0)) = false := by
  and_intros <;> first | exact admitsControl_of (by decide +kernel) | decide +kernel
theorem test_marker :
    (sluiceAt (after (.marker 0 (controlFrame upPort 4 (toLe 2 3 ++ toLe 2 1))) markers) (sluiceKey 0 3)).bits = [1] := by
  decide +kernel
theorem test_digest : (portAt (after (.digest 0 (controlFrame upPort 5 (zeros 40))) committing) 0).digCount = 1 := by
  decide +kernel
theorem test_commit_ack :
    (after (.commitAck 0 (ackOf 7 0)) committing).commits.map (fun c => c.acked) = [true] ∧
    freezesWith 0x1C (.commitAck 0 (ackOf 7 2)) committing = true ∧
    (ringAt (after (.commitAck 0 (ackOf 8 0)) committing) 0).cnt.commitStray = 1 := by decide +kernel

/-- A CHAIN-OUT port of die 0. -/
def chainPort : Port := { upPort with role := 7 }
/-- A run with that port and a shard sluice 3 of 2 tiles, version 4. -/
def sharded (st : SluiceSt) (vers : Nat) : State :=
  { sluiced { sluice st with vsrc := 1, tid := 0x80000009, version := vers } Ring.reset with ports := [(0, chainPort)] }
/-- A SHARD_REQ for both tiles of a tensor of sluice 3. -/
def shardReqOf (tid : Nat) : Bytes := bulkHeader chainPort 5 0 16 3 4 0 ++ toLe 4 tid ++ toLe 4 0 ++ toLe 4 2 ++ zeros 4

theorem witness_ShardRequestsAndChecks :
    admitsBulk (sharded .opened 4) 0 6 5 (shardReqOf 0x80000009) ∧ admitsBulk (sharded .opened 4) 0 6 5 (shardReqOf 9) ∧
    admitsBulk (sharded .closed 4) 0 6 5 (shardReqOf 0x80000009) ∧ admitsBulk (sharded .opened 3) 0 6 5 (shardReqOf 0x80000009) ∧
    State.canon (sharded .opened 4) = true ∧ (sharded .opened 4).tier.writes = [] ∧
    sluiceOwner (sharded .opened 4) (0 / 2) (fIndex (shardReqOf 9)) = 0 ∧
    (reqOf 0 (shardReqOf 9)).ntiles = 2 ∧ (heldReqs (sharded .opened 4) 0).length < 256 ∧
    (sluiceAt (sharded .opened 4) (sluiceKey 0 3)).tid ≠ (reqOf 0 (shardReqOf 9)).tid ∧
    (sluiceAt (sharded .opened 4) (sluiceKey 0 3)).tid = (reqOf 0 (shardReqOf 0x80000009)).tid ∧
    (sluiceAt (sharded .opened 4) (sluiceKey 0 3)).version = (reqOf 0 (shardReqOf 0x80000009)).version ∧
    (sluiceAt (sharded .opened 3) (sluiceKey 0 3)).version ≠ (reqOf 0 (shardReqOf 0x80000009)).version ∧
    0 + 2 ≤ (sluiceAt (sharded .opened 4) (sluiceKey 0 3)).count ∧ (sluiceAt (sharded .opened 4) (sluiceKey 0 3)).bits = [] := by
  and_intros <;> first | exact admitsBulk_of (by decide +kernel) | decide +kernel
theorem test_shard_request :
    (ringAt (after (.shardReq 0 6 (shardReqOf 0x80000009)) (sharded .opened 4)) 0).reqs.map (fun q => (q.served, q.left)) =
      [(true, [0, 1])] ∧
    (ringAt (after (.shardReq 0 6 (shardReqOf 0x80000009)) (sharded .closed 4)) 0).reqs.map (fun q => (q.served, q.left)) =
      [(false, [])] ∧
    (ringAt (after (.shardReq 0 6 (shardReqOf 9)) (sharded .opened 4)) 0).cnt.shardStale = 1 := by decide +kernel

/-- SHA-256 of nothing, a published test vector of FIPS 180-4. -/
def emptyHash : List Nat :=
  [0xe3, 0xb0, 0xc4, 0x42, 0x98, 0xfc, 0x1c, 0x14, 0x9a, 0xfb, 0xf4, 0xc8, 0x99, 0x6f, 0xb9, 0x24,
   0x27, 0xae, 0x41, 0xe4, 0x64, 0x9b, 0x93, 0x4c, 0xa4, 0x95, 0x99, 0x1b, 0x78, 0x52, 0xb8, 0x55]
theorem test_sha256_of_nothing : sha256 [] = emptyHash.map (BitVec.ofNat 8) := by decide +kernel
theorem test_crc32c : crc32c (ascii "123456789") = 0xE3069283 := by decide +kernel

/-- A complete shard of a seal tile alone, whose STATUS and DIGEST lie in slot 0 of stack 0. -/
def checking (status : Nat) (digest : List Nat) : State :=
  { sluiced { sluice .complete with vsrc := 1, tid := 0x80000009, count := 1, landed := 1, bits := [0], check := 1 }
      { Ring.reset with checks := [3] } with
    stackMem := ((digest.map (BitVec.ofNat 8)).zipIdx.map (fun e => (e.2, e.1))) ++
      (if status = 0 then [] else [(0x20, BitVec.ofNat 8 status)]) }

theorem witness_ShardRequestsAndChecks_check :
    isSafe (checking 0 emptyHash) = false ∧ State.canon (checking 0 emptyHash) = true ∧
    State.canon (checking 2 []) = true ∧ State.canon (checking 0 [1]) = true ∧
    (ringAt (checking 0 emptyHash) 0).checks = [3] ∧ (checking 0 emptyHash).stackUpsets = [] ∧
    (sluiceAt (checking 0 emptyHash) (sluiceKey 0 3)).check = 1 ∧
    sealStatus (readUnit 5 (checking 0 emptyHash)).1 = 0 ∧ sealTiles (readUnit 5 (checking 0 emptyHash)).1 = 1 - 1 ∧
    sealDigest (readUnit 5 (checking 0 emptyHash)).1 = sha256 [] ∧ inRun (checking 2 []) = true ∧
    sealStatus (readUnit 5 (checking 2 [])).1 = 2 ∧ sealStatus (readUnit 5 (checking 0 [1])).1 = 0 ∧
    sealDigest (readUnit 5 (checking 0 [1])).1 ≠ sha256 [] := by decide +kernel
theorem test_shard_check :
    (sluiceAt (after (.shardCheck 0) (checking 0 emptyHash)) (sluiceKey 0 3)).check = 2 ∧
    freezesWith 0x18 (.shardCheck 0) (checking 2 []) = true := by
  decide +kernel

/-- A lender that lends slots 10 and 11 of stack 0 on port 0. -/
def lender : State :=
  { engine .lender with
    ports := [(0, { upPort with role := 8 })],
    tier := { Tier.reset with lend := some { ports := 1, tag := 5, epoch := 1, first := 10, count := 2 } } }
/-- A HOME_WRITE for a flat index: header only. -/
def homeWriteOf (flat : Nat) : Bytes := bulkHeader upPort 2 0 16448 0 flat 0
/-- A HOME_READ of one tile. -/
def homeReadOf (flat : Nat) : Bytes := bulkHeader upPort 3 0 8 1 flat 0 ++ toLe 4 77 ++ toLe 2 1 ++ zeros 2
/-- A descriptor of a kind, posted by the host. -/
def desc (kind count : Nat) : Desc :=
  { descOf true [] with kind := kind, count := count, dunit := 5, tag := 33, vl := if kind = 4 then 6 else 0 }
/-- A running descriptor. -/
def runningDesc (d : Desc) : Running :=
  { desc := d, no := 0, done := 0, sent := 0, readId := 77, written := [], tries := [], rereads := [], sentBytes := [], lanes := [] }
/-- A run with a FETCH of two tiles into units 5 and 6. -/
def fetching : State :=
  { landingIn with queues := [(0, { Queue.reset with running := [runningDesc (desc 4 2)], started := 1 })] }
/-- A HOME_DATA for position 1 of that read. -/
def homeDataOf : Bytes := bulkHeader upPort 4 0 16448 77 1 0 ++ tile9

theorem witness_HomeTraffic :
    State.canon lender = true ∧ admitsBulk lender 0 0 2 (homeWriteOf 11) ∧ admitsBulk lender 0 0 2 (homeWriteOf 12) ∧
    lends lender 0 = true ∧ lentSlot lender 0 (fieldB (homeWriteOf 11) 16 6) = some (0, 11) ∧
    lentSlot lender 0 (fieldB (homeWriteOf 12) 16 6) = none ∧ lentSlot lender 0 (fieldB (homeWriteOf 10) 16 6) = some (0, 10) ∧
    admitsBulk lender 0 6 3 (homeReadOf 10) ∧ fieldB (homeReadOf 10) 12 2 = 1 ∧ lender.stackUpsets = [] ∧
    lentSlot lender 0 (fieldB (homeReadOf 10) 16 6) = some (0, 10) := by
  and_intros <;> first | exact admitsBulk_of (by decide +kernel) | decide +kernel
theorem witness_HomeTraffic_fetch :
    State.canon fetching = true ∧ admitsBulk fetching 0 0 4 homeDataOf ∧ tileGood (fBody homeDataOf) = true ∧
    fetchOf fetching (fieldB homeDataOf 12 4) (fieldB homeDataOf 16 2) = some (0, runningDesc (desc 4 2), 1) ∧
    (runningDesc (desc 4 2)).written.contains 1 = false ∧ (mapAt fetching ((desc 4 2).dunit + 1)).res = true := by
  refine ⟨?_, ?_, ?_, ?_⟩
  · decide +kernel
  · exact admitsBulk_of (by decide +kernel)
  · have h : fBody homeDataOf = tile9 := by unfold fBody homeDataOf; exact List.drop_left' (by decide +kernel)
    rw [h]; exact tile9_good
  · decide +kernel
theorem test_home_write_outside : (after (.homeWrite 0 0 (homeWriteOf 12)) lender).tier.drops = 1 := by decide +kernel

/-! ## Transfer queues, the tier engine, staging -/

/-- A run with queue 0 of port 0, the port in a state, and a resident completion ring. -/
def queuedOn (q : Port) (x : Queue) : State :=
  { linked q with
    queues := [(0, x)], tier := { Tier.reset with map := [(0, { MapEntry.reset with res := true, stack := 3 })] } }
/-- A queue with one posted descriptor. -/
def posted (d : Desc) : Queue := { Queue.reset with descs := [d] }
/-- A queue with one running descriptor. -/
def runningQ (r : Running) : Queue := { Queue.reset with running := [r], started := 1 }
/-- A marker that has been sent, of the host or of the manifest. -/
def sentMarker (host : Bool) : Running := { runningDesc { desc 6 1 with host := host } with sent := 1 }
/-- A manifest's descriptor of no tiles, a queue with it after weir 7, and the run in which the completion ring is the host's. -/
def noTiles : Desc := { desc 6 0 with host := false, startWeir := 7 }
def listQ : Queue := { posted noTiles with manifest := true }
def barredRing : State :=
  { queuedOn upPort listQ with
    weir := { WeirCtl.reset with await := 1 },
    tier := { Tier.reset with
      map := [(0, { MapEntry.reset with res := true })], accts := [(acctKey 1 0, { Account.reset with hostAcc := true })] } }
/-- The same with the ring the manifest's own and not resident. -/
def noRing : State := { barredRing with tier := Tier.reset }

theorem witness_DescriptorsRun :
    (∀ s ∈ [queuedOn upPort (posted (desc 6 1)), barredRing, noRing], isSafe s = false ∧ State.canon s = true ∧
      s.tier.writes = [] ∧ (queueAt s 0).running = [] ∧ tqCountsOk (queueAt s 0) = true ∧ canFreeze s = true) ∧
    startable (queuedOn upPort (posted (desc 6 1))) 0 = some (desc 6 1) ∧
    startBar (queuedOn upPort (posted (desc 6 1))) 0 (desc 6 1) = none ∧ (desc 6 1).host = true ∧
    startable (queuedOn { upPort with st := .down } (posted (desc 6 1))) 0 = some (desc 6 1) ∧
    startBar (queuedOn { upPort with st := .down } (posted (desc 6 1))) 0 (desc 6 1) = some stLinkDown ∧
    startBar (queuedOn { upPort with st := .ceased } (posted (desc 6 1))) 0 (desc 6 1) = some stPeerCeased ∧
    startBar (queuedOn upPort (posted { desc 6 1 with ok := false })) 0 { desc 6 1 with ok := false } = some stBadDescriptor ∧
    (mapAt (queuedOn upPort (posted (desc 6 1))) 0).res = true ∧
    ringBarred (posted (desc 6 1)) (queuedOn upPort (posted (desc 6 1))) = false ∧
    startable barredRing 0 = some noTiles ∧ startBar barredRing 0 noTiles = some stOk ∧ ringBarred listQ barredRing = true ∧
    startable noRing 0 = some noTiles ∧ startBar noRing 0 noTiles = some stOk ∧ (mapAt noRing 0).res = false := by decide +kernel

/-- A configured engine with resident units 0 (the completion ring), 5 and 6, some stack memory, port 0 in a role, both tiles
of sluice 3 of die 0 landed in units 5 and 6, a payload in extraction buffer 5 of die 0, and a descriptor posted on queue 0. -/
def outgoing (role : Nat) (m : Mem) (d : Desc) : State :=
  { linked { upPort with role := role } with
    dev := { Dev.reset with st := .configured }, queues := [(0, posted d)], stackMem := m,
    sluices := [(sluiceKey 0 3, { sluice .closed with bits := [0, 1], landed := 2 })],
    rings := [(0, { Ring.reset with extract := [(5, zeros payloadSize)] })],
    tier := { Tier.reset with
      map := [(0, { MapEntry.reset with res := true, stack := 3 }), (5, { MapEntry.reset with res := true, stack := 2 }),
              (6, { MapEntry.reset with res := true, stack := 2, slot := 1 })] } }
/-- A descriptor of a kind that sends two tiles from units 5 and 6, or from extraction buffer 5. -/
def sends (kind : Nat) (srcx : Bool) : Desc :=
  { desc kind (if kind = 7 then 1 else 2) with
    src := if kind = 3 then 3 else 5, dsl := 4, srcx := srcx, tid := 9, fmt := 1, shape := 1, host := true }
/-- A carry tile in FP32 of no hops, and two of them in units 5 and 6 (R300). -/
def carryTile : Bytes :=
  buildTile { tid := 9, version := 0, row := 0, col := 0, fmt := 2, shape := 3 } (zeros payloadSize) (32 :: 1 :: zeros 38)
def carried : Mem := Mem.write 0 (Mem.write 0 [] (slotKey 2 0) (slotOfFrame carryTile)) (slotKey 2 1) (slotOfFrame carryTile)
theorem carryTile_good : tileGood carryTile = true :=
  tileGood_buildTile _ _ _ (by simp [zeros]) (by decide) (by decide) (by decide) (by decide) (by decide)

theorem witness_DescriptorsRun_sends :
    (∀ role ∈ [rHeadgate, rOutlet], ∀ d ∈ [sends 1 false, sends 1 true, sends 5 false, sends 5 true, sends 2 false, sends 3 false,
        sends 4 false, sends 7 false],
      let s := outgoing role [] d
      startable s 0 = some d ∧ startBar s 0 d = none ∧ d.host = true ∧ (queueAt s 0).running = [] ∧
      s.ports.all (fun p => p.2.sealedReq == false) = true ∧ isSafe s = false ∧ s.stackUpsets = [] ∧ s.tier.writes = []) ∧
    State.canon (outgoing rOutlet [] (sends 1 true)) = true ∧ 1 ≤ wireLanes (outgoing rHeadgate [] (sends 2 false)) ∧
    (∀ u ∈ [5, 6], (mapAt (outgoing rHeadgate [] (sends 1 false)) u).res = true ∧
      foreignUnit (sends 1 false) u (outgoing rHeadgate [] (sends 1 false)) = false) ∧
    (sluiceAt (outgoing rHeadgate [] (sends 3 false)) (sluiceKey 0 3)).bits.filter (fun i => decide (i < 2)) = [0, 1] ∧
    (mapAt (outgoing rHeadgate [] { sends 1 false with src := 7 }) 7).res = false ∧
    startBar (outgoing rHeadgate [] { sends 1 false with src := 7 }) 0 { sends 1 false with src := 7 } = none := by
  decide +kernel
theorem witness_DescriptorsRun_carry :
    carryCheck false true (hopsOut (outgoing rHeadgate [] (sends 2 false))) carryTile = 0 := by decide +kernel
theorem test_descriptor_sends :
    (after (.descriptorStart 0) (outgoing rHeadgate [] (sends 4 false))).readIds = 1 ∧
    ((after (.descriptorStart 0) (outgoing rHeadgate [] (sends 7 false))).commits.map (fun c => c.version)) = [1] := by
  decide +kernel

theorem witness_DescriptorsRun_end :
    runOf (queuedOn upPort (runningQ (sentMarker true))) 0 33 = some (sentMarker true) ∧
    runOf (queuedOn upPort (runningQ (sentMarker false))) 0 33 = some (sentMarker false) ∧
    (runningQ (sentMarker true)).running.filter (fun x => x.no == 0) = [sentMarker true] ∧
    tqCountsOk (runningQ (sentMarker true)) = true ∧ State.canon (queuedOn upPort (runningQ (sentMarker true))) = true ∧
    (mapAt (queuedOn upPort (runningQ (sentMarker true))) 0).res = true ∧
    Machine.finished (queuedOn upPort (runningQ (sentMarker true))) 0 (sentMarker true) = true ∧
    (portsOf (queuedOn upPort (runningQ (sentMarker true))) 0 (desc 6 1)).all
      (fun p => (portAt (queuedOn upPort (runningQ (sentMarker true))) p).st == .up) = true ∧
    canFreeze (queuedOn upPort (runningQ (sentMarker false))) = true := by decide +kernel
theorem test_descriptor_start :
    ((queueAt (after (.descriptorStart 0) (queuedOn upPort (posted (desc 6 1)))) 0).running.map (fun r => r.sent)) = [1] ∧
    (portAt (after (.descriptorStart 0) (queuedOn upPort (posted (desc 6 1)))) 0).retry.length = 1 ∧
    (queueAt (after (.descriptorStart 0) (queuedOn { upPort with st := .down } (posted (desc 6 1)))) 0).completions = 1 ∧
    freezesWith 0x11 (.descriptorStart 0) barredRing = true ∧ freezesWith 0x16 (.descriptorStart 0) noRing = true := by
  decide +kernel
theorem test_descriptor_complete :
    (queueAt (after (.descriptorComplete 0 33) (queuedOn upPort (runningQ (sentMarker true)))) 0).recent = [(33, 0)] ∧
    (queueAt (after (.descriptorComplete 0 33) (queuedOn upPort (runningQ (sentMarker true)))) 0).entries = 1 := by
  decide +kernel
theorem test_descriptor_timeout :
    (queueAt (after (.timeout 0 33) (queuedOn upPort (runningQ (sentMarker true)))) 0).completions = 1 ∧
    freezesWith 0x16 (.timeout 0 33) (queuedOn upPort (runningQ (sentMarker false))) = true := by decide +kernel

/-- An operation on two units from 5 on, in slots 7 and 8 of stack 1, in account 3 of tier 1, or 2 of tier 2 as a home. -/
def migEntry (op : Nat) : MigEntry :=
  { op := op, htier := if op = 7 then 2 else 0, acct := if op = 7 then 2 else 3, count := 2, unit := 5, loc := 2 ^ 23 + 7 }
/-- A map entry of unit 5 to which an operation may be done. -/
def mapFor (op : Nat) : MapEntry :=
  { MapEntry.reset with
    res := [2, 3, 4, 6].contains op, dirty := op == 2 || op == 3, acct := 1, slot := 9,
    htier := if op = 7 then 0 else 2, hacct := if op = 7 then 0 else 2, loc := 40 }
/-- An instance of a list with those entries. -/
def migInst (es : List MigEntry) : MigInst := { list := 32768, next := 0, done := 0, entries := es, thisRun := true, tries := 0 }
/-- Accounts 1 and 3 of tier 1 with room, account 2 of tier 2 with room on bundle 1. -/
def accounts (used : Nat) : Tab Account :=
  [(1, { Account.reset with limit := 5, used := used }), (3, { Account.reset with limit := 5 }),
   (66, { Account.reset with limit := 5, bundle := 1, base := 100, used := 1 })]
/-- An engine with a manifest resident and one list at work. -/
def migrating (host : Bool) (m : MapEntry) (inst : MigInst) : State :=
  { engine .resident with
    ports := [(0, { upPort with role := 8 })],
    tier := { Tier.reset with
      map := [(5, m)], accts := accounts 1, inUse := 1, hostQ := if host then [inst] else [], manQ := if host then [] else [inst] } }
/-- The unit that it works on. -/
def unitOp (op : Nat) : UnitOp := { e := migEntry op, i := 0, m := mapFor op }

theorem witness_MigrationLists (host : Bool) :
    ∀ op ∈ [1, 2, 3, 4, 5, 6, 7, 8],
      migQueue host (migrating host (mapFor op) (migInst [migEntry op])) = [migInst [migEntry op]] ∧
      turnOf host (migrating host (mapFor op) (migInst [migEntry op])) = true ∧
      tierWorks host (migrating host (mapFor op) (migInst [migEntry op])) = true ∧
      State.canon (migrating host (mapFor op) (migInst [migEntry op])) = true ∧
      (migrating host (mapFor op) (migInst [migEntry op])).stackUpsets = [] ∧ 0 + 1 < (migEntry op).count ∧
      mapAt (migrating host (mapFor op) (migInst [migEntry op])) 5 = mapFor op ∧
      (unitOp op).bar host (migrating host (mapFor op) (migInst [migEntry op])) = none ∧
      (op ≠ 7 → homePort (migrating host (mapFor op) (migInst [migEntry op])) (unitOp op) = some 0) ∧
      (op = 7 → (mapFor op).htier = 0) ∧ (op = 8 → (mapFor op).htier ≠ 0) ∧
      (op = 2 ∨ op = 3 → (mapFor op).dirty = true) := by revert host; decide +kernel
theorem witness_MigrationLists_frame :
    tileGood tile9 = true ∧ tileGood [] = false ∧ (migInst []).tries < 3 ∧
    (migrating true (mapFor 1) (migInst [migEntry 1])).tier.writes = [] := ⟨tile9_good, by decide +kernel, by decide, rfl⟩
/-- A home frame whose CRC fails is asked for again (R259). -/
theorem test_fetch_again :
    ((migQueue true (after (.fetch true (some [])) (migrating true (mapFor 1) (migInst [migEntry 1])))).map (fun m => m.tries)) =
      [1] := by decide +kernel
theorem witness_MigrationLists_clean :
    UnitOp.bar { unitOp 2 with m := { mapFor 2 with dirty := false } } true
      (migrating true { mapFor 2 with dirty := false } (migInst [migEntry 2])) = none := by decide +kernel
/-- A DROP of unit 5 alone. -/
def dropOne : MigInst := migInst [{ migEntry 4 with count := 1 }]
/-- The same with a wrong sum in the accounts, and in a run where the account is the host's. -/
def wrongSum : State :=
  { migrating true (mapFor 4) dropOne with tier := { (migrating true (mapFor 4) dropOne).tier with inUse := 2 } }
def notOwned : State :=
  { migrating false (mapFor 4) dropOne with
    dev := { Dev.reset with st := .running },
    tier := { (migrating false (mapFor 4) dropOne).tier with
      accts := [(1, { Account.reset with limit := 5, used := 1, hostAcc := true })] } }

theorem witness_MigrationLists_end :
    migQueue true (migrating true (mapFor 4) dropOne) = [dropOne] ∧
    dropOne.entries = [{ migEntry 4 with count := 1 }] ∧ turnOf true (migrating true (mapFor 4) dropOne) = true ∧
    UnitOp.bar { unitOp 4 with e := { migEntry 4 with count := 1 } } true (migrating true (mapFor 4) dropOne) = none ∧
    auditOk (vacate 5 (migrating true (mapFor 4) dropOne)) = true ∧ auditOk (vacate 5 wrongSum) = false ∧
    canFreeze wrongSum = true ∧ UnitOp.bar { unitOp 4 with e := { migEntry 4 with count := 1 } } true wrongSum = none ∧
    UnitOp.bar { unitOp 4 with e := { migEntry 4 with count := 1 }, m := mapFor 5 } true
      (migrating true (mapFor 5) dropOne) = some .precond ∧
    UnitOp.bar { unitOp 4 with e := { migEntry 4 with count := 1 } } false notOwned = some .ownership ∧
    canFreeze notOwned = true ∧ turnOf false notOwned = true ∧ tierWorks false notOwned = true := by decide +kernel
theorem test_migrations :
    mapAt (after (.alloc true) (migrating true (mapFor 1) (migInst [migEntry 1]))) 5 = mapFor 1 ∧
    mapAt (after (.bind true) (migrating true (mapFor 7) (migInst [migEntry 7]))) 5 =
      { mapFor 7 with htier := 2, hacct := 2, loc := 2 ^ 23 + 7 } ∧
    mapAt (after (.unbind true) (migrating true (mapFor 8) (migInst [migEntry 8]))) 5 =
      { mapFor 8 with htier := 0, hacct := 0, loc := 0 } ∧
    (after (.drop true) (migrating true (mapFor 4) dropOne)).tier.inUse = 0 := by decide +kernel
theorem test_migrations_fail :
    freezesWith 0x0F (.drop true) wrongSum = true ∧ freezesWith 0x11 (.drop false) notOwned = true ∧
    (Tab.get ListRec.reset (after (.drop true) (migrating true (mapFor 5) dropOne)).tier.recs 32768) =
      { st := .stopped, next := 0, cause := 1, unit := 5 } := by decide +kernel

/-- A staging or extraction entry of one tile in unit 5. -/
def stageEnt (mode : Nat) : StageEnt :=
  { unit := 5, count := 1, trailer := false, mode := mode, trows := 0, amem := true, row := 3, rowStep := 32, tid := 9,
    fmt := 1, shape := 1, trow := 0, tcol := 0, trb := 0 }
/-- A started list of stack 0 with that entry and the bytes extracted. -/
def stageList (dir : Bool) (mode : Nat) (bs : Bytes) : StageList :=
  { StageList.none with extraction := dir, entries := [stageEnt mode], st := .executing, total := 1, bytes := bs }
/-- A run with list 4 of stack 0, unit 5 resident in slot 0 of stack 2, and a step number. -/
def staging (dir : Bool) (mode : Nat) (bs : Bytes) (m : Mem) (step : Nat) : State :=
  { landingIn with
    stackMem := m, runBlk := { RunBlock.reset with step := step },
    tier := { landingIn.tier with stages := [(stageKey 0 dir 4, stageList dir mode bs)] } }
/-- A tile frame of tensor 0x80000009, version 0. -/
def tileV : Bytes := buildTile { tid := 0x80000009, version := 0, row := 0, col := 0, fmt := 1, shape := 1 } (zeros payloadSize) []
theorem tileV_good : tileGood tileV = true :=
  tileGood_buildTile _ _ _ (by simp [zeros]) (by decide) (by decide) (by decide) (by decide) (by decide)
/-- Stack memory with that frame in unit 5. -/
def stackV : Mem := Mem.write 0 [] (slotKey 2 0) (slotOfFrame tileV)
theorem staging_reads_of (m : Mem) (step : Nat) (h : m = Mem.write 0 [] (slotKey 2 0) (slotOfFrame tileV)) :
    (readUnit 5 (staging false 0 [] m step)).1 = tileV :=
  readUnit_of_write _ _ _ [] rfl tileV_good h
theorem staging_reads (step : Nat) : (readUnit 5 (staging false 0 [] stackV step)).1 = tileV :=
  staging_reads_of stackV step (by simp only [stackV])
theorem canon_mem (s : State) (m : Mem) (h : State.canon { s with stackMem := [] } = true) (hm : Tab.wf 0 m = true) :
    State.canon { s with stackMem := m } = true := by
  simp only [State.canon, Bool.and_eq_true, and_assoc] at h ⊢
  exact ⟨h.1, hm, h.2.2⟩
/-- A finished payload in an extraction buffer. -/
def extracted : Bytes := zeros payloadSize

theorem witness_StagingAndExtraction :
    (staging false 0 [] stackV 0).dev.st = .running ∧ (staging false 0 [] stackV 0).stackUpsets = [] ∧
    State.canon (staging false 0 [] stackV 0) = true ∧
    (stageAt (staging false 0 [] stackV 0) (stageKey 0 false 4)).st = .executing ∧
    tileOf (stageAt (staging false 0 [] stackV 0) (stageKey 0 false 4)).entries 0 = some (stageEnt 0, 0) ∧
    injectionRows (staging false 0 [] stackV 0) 0 + (stageEnt 0).tileRows ≤ injectionSize ∧
    unitBar false (5 + 0) (staging false 0 [] stackV 0) = none ∧
    tileGood (readUnit 5 (staging false 0 [] stackV 0)).1 = true ∧
    tVersion (readUnit 5 (staging false 0 [] stackV 0)).1 = 0 ∧ bit (tTid (readUnit 5 (staging false 0 [] stackV 0)).1) 31 = true ∧
    tileGood (readUnit 5 (staging false 0 [] stackV 1)).1 = true ∧
    tVersion (readUnit 5 (staging false 0 [] stackV 1)).1 ≠ (staging false 0 [] stackV 1).runBlk.step := by
  have e0 := staging_reads 0
  have e1 := staging_reads 1
  have hm : Tab.wf 0 stackV = true := Mem.wf_write _ _ _ _ rfl
  refine ⟨rfl, rfl, canon_mem (staging false 0 [] [] 0) stackV (by decide +kernel) hm, rfl, rfl, by decide +kernel, rfl, ?_⟩
  rw [e0, e1]
  exact ⟨tileV_good, by decide +kernel, by decide +kernel, tileV_good, by decide +kernel⟩
theorem witness_StagingAndExtraction_bad :
    tileGood (readUnit 5 (staging false 0 [] [] 0)).1 = false ∧
    (mapAt { staging false 0 [] [] 0 with tier := { (staging false 0 [] [] 0).tier with map := [] } } 5).res = false := by
  decide +kernel
theorem witness_StagingAndExtraction_extract :
    ∀ mode ∈ [0, 1, 2], State.canon (staging true mode extracted [] 0) = true ∧
      (stageAt (staging true mode extracted [] 0) (stageKey 0 true 4)).st = .executing ∧
      tileOf (stageAt (staging true mode extracted [] 0) (stageKey 0 true 4)).entries 0 = some (stageEnt mode, 0) ∧
      stageBytes (stageEnt mode) ≤ (stageAt (staging true mode extracted [] 0) (stageKey 0 true 4)).bytes.length ∧
      unitBar false (5 + 0) (staging true mode extracted [] 0) = none := by
  have hb (mode : Nat) : (stageAt (staging true mode extracted [] 0) (stageKey 0 true 4)).bytes.length = payloadSize := by
    show (zeros payloadSize).length = payloadSize
    simp [zeros]
  intro mode _
  refine ⟨?_, rfl, rfl, by rw [hb]; exact Nat.le_refl _, rfl⟩
  rcases mode with _ | mode <;> rfl
theorem witness_StagingAndExtraction_store :
    storeCheck (staging true 0 extracted [] 0) (storedTile 0 (stageEnt 0) 0 (extracted.take (stageBytes (stageEnt 0)))) = 0 := by
  decide +kernel
theorem test_staging_faults :
    freezesWith 0x12 (.stagingRead 0 4) (staging false 0 [] [] 0) = true ∧
    freezesWith 0x10 (.stagingRead 0 4)
      { staging false 0 [] [] 0 with tier := { (staging false 0 [] [] 0).tier with map := [] } } = true := by decide +kernel

/-! ## Power, clocks, sensors -/

/-- A feed in range. -/
def feedIn : FeedReg := { FeedReg.reset with mv := 54000, st := .inRange }
/-- The engine ready with both feeds in range and field 17 on. -/
def fed : State :=
  { engine .ready with
    power := { Power.reset with on := true, pwrEn := true, feedA := feedIn, feedB := feedIn },
    heat := { Heat.reset with fields := [(17, { FieldReg.reset with supply := .on, pll := true })] },
    clusters := [(15940, cluster)] }
/-- The module with feeds and no power. -/
def unpowered (pgm held : Bool) : State :=
  { State.reset with power := { Power.reset with pwrEn := held, flashPgm := pgm, held := held, feedA := feedIn } }

theorem witness_PowerAndFeeds :
    fed.power.on = true ∧ canFreeze fed = true ∧ (feedOf .a fed).st = .inRange ∧ (feedOf (otherFeed .a) fed).st = .inRange ∧
    feedStateAt 49999 ≠ .inRange ∧ feedStateAt 59501 ≠ .inRange ∧ feedStateAt 50000 = .inRange ∧
    feedStateAt 59500 = .inRange ∧ 44999 < 45000 ∧ 60000 < 60001 ∧ ¬(45000 < 45000 ∨ 60000 < 45000) ∧
    (feedOf .a (after (.feedConnect .a 54000) fed)).st = .inRange ∧
    (feedOf .a (after (.feedConnect .a 55001) fed)).st = .inRange ∧ (feedOf .b fed).mv + 1000 < 55001 := by decide +kernel
theorem test_feeds :
    (after (.feedLoss .a 49999) fed).logs.eventCount = 1 ∧ (feedOf .a (after (.feedLoss .a 49999) fed)).st = .absent ∧
    (feedOf .b (after (.feedOvervoltage .b 60001) fed)).st = .disconnected ∧
    (feedOf .a (after (.feedConnect .a 54000) State.reset)).st = .inRange := by decide +kernel
theorem test_power_is_gone :
    (after (.powerRemoval 44999 44999) fed).power.on = false ∧ (after .powerDown fed).power.pwrEn = false ∧
    (after .busOrHubSupplyFault fed).clusters = [] ∧ freezesWith 0x21 (.feedUndervoltage 49999 45000) fed = true ∧
    freezesWith 0x21 (.feedUndervoltage 60001 45000) fed = true ∧ (after (.powerRemoval 60001 44999) fed).power.on = false := by
  decide +kernel

theorem witness_ColdStartOutcome :
    (unpowered false false).power.on = false ∧ feedReady (unpowered false false) = true ∧
    (unpowered false false).power.flashPgm = false ∧ (unpowered true false).power.flashPgm = true ∧
    feedReady (unpowered true false) = true ∧ (unpowered true true).power.held = true ∧
    (unpowered true true).power.pwrEn = true ∧ feedReady (unpowered true true) = true ∧
    (unpowered true true).power.on = false ∧ (unpowered false false).power.pwrEn = false ∧
    (unpowered false false).power.held = false ∧ feedReady State.reset = false ∧ State.reset.power.on = false ∧
    State.reset.power.flashPgm = false := by decide +kernel
/-- PWR_EN is an input: it stays asserted where no feed is in range, and then the flash is not written (R428, R430). -/
theorem test_flash_pins :
    (after (.coldStart ⟨none, 0, 0, [], ⟨8, 64, true⟩, [], [], [], [], []⟩) State.reset).power.pwrEn = true ∧
    (after (.flashPgmN ⟨true, true⟩ [(5, [1])] ⟨none, 0, 0, [], ⟨8, 64, true⟩, [], [], [], [], []⟩) State.reset).flash ≠
      State.reset.flash ∧
    (after (.flashPgmN ⟨true, false⟩ [(5, [1])] ⟨none, 0, 0, [], ⟨8, 64, true⟩, [], [], [], [], []⟩) State.reset).flash =
      State.reset.flash := by decide +kernel

/-- The engine at a reading of junction 3 of field 17. -/
def readAt17 (q : Int) : Instr := .sensorSample [{ sensor := .junction 17 3, quarter := q }]

theorem witness_SensorsAndTrips :
    fed.power.on = true ∧ State.canon fed = true ∧ fed.heat.armed = true ∧ canFreeze fed = true ∧
    supplyIsOn fed 17 = true ∧ 17 < 94 ∧ 3 < 8 ∧ (Guarded.stack 15).wf = true ∧ (Guarded.stack 16).wf = false := by decide +kernel
theorem test_sensor_request :
    (after (readAt17 359) fed).heat.req = false ∧ (after (readAt17 360) fed).heat.req = true ∧
    (after (readAt17 360) fed).cxl.msix = [0, 0, 1, 0] ∧ (after (readAt17 399) fed).heat.hot = false ∧
    (after (readAt17 400) fed).heat.hot = true := by decide +kernel
theorem test_trips :
    freezesWith 0x20 (readAt17 432) fed = true ∧ (after (readAt17 432) fed).clusters = [] ∧
    inSafe (after (readAt17 431) fed) = false ∧ freezesWith 0x20 (.sensorSilent (.sensor (.junction 17 3))) fed = true ∧
    freezesWith 0x21 (.supplyFault 17 .overheat) fed = true ∧ freezesWith 0x22 .watchdog fed = true ∧
    freezesWith 0x04 (.sensorSilent (.detector (.stack 15))) fed = true := by decide +kernel

/-- An HTIME frame with valid time and a time in ns, its CRC made by R376. -/
def htime (ns : Nat) : BitVec 96 :=
  BitVec.ofNat 96 (0xD5 + ns * 2 ^ 8 + 2 ^ 72 + (crc8 (toLe 8 ns ++ toLe 2 1)).toNat * 2 ^ 88)
/-- An engine whose counter stands at 20 µs after a number of frames, and good or bad ones in a row. -/
def timed (frames good bad : Nat) : State :=
  { engine .ready with
    hall := { Hall.reset with ns := 20000 * 2 ^ 32, frames := frames, good := good, bad := bad, offsetSet := true, lock := true },
    ports := [(0, upPort)] }

theorem witness_ClocksRecordsAndCables :
    State.canon (timed 1 31 0) = true ∧ (portAt (timed 1 31 0) 0).st = .up ∧ (portAt (timed 1 31 0) 0).role ≠ 0 ∧
    (portAt (timed 1 31 0) 0).retrained = none ∧ (timed 1 31 0).power.on = true ∧ bits (htime 20025).toNat 7 0 = 0xD5 ∧
    htimeIntact (htime 20025).toNat true = true ∧ htimeIntact (htime 20025).toNat false = false ∧
    bit (htime 20025).toNat 72 = true ∧ (timed 0 0 0).hall.frames = 0 ∧ (timed 1 31 0).hall.frames ≠ 0 ∧
    (timed 1 31 0).hall.offsetSet = true ∧ 31 ≤ (timed 1 31 0).hall.good ∧ 3 ≤ (timed 1 0 3).hall.bad ∧
    (timed 1 0 3).dev.st ≠ .running := by decide +kernel
theorem test_htime_steps :
    (after (.htimeFrame (htime 20001) true) (timed 0 0 0)).hall.ns = 20000 * 2 ^ 32 ∧
    (after (.htimeFrame (htime 20001) true) (timed 0 0 0)).hall.step = 2 ^ 32 ∧
    (after (.htimeFrame (htime 30001) true) (timed 1 0 0)).hall.step = 10001 * 2 ^ 32 ∧
    (after (.htimeFrame (htime 30000) true) (timed 1 0 0)).hall.step = 0 ∧
    (after (.htimeFrame (htime 20000) false) (timed 1 0 0)).hall.frameErr = 1 := by decide +kernel
theorem test_htime_lock :
    (after (.htimeFrame (htime 20025) true) { timed 1 31 0 with hall := { (timed 1 31 0).hall with lock := false } }).hall.lock =
      true ∧
    (after (.htimeFrame (htime 20026) true) (timed 1 0 3)).hall.lock = false ∧
    (after .htimeTimeout (timed 1 31 0)).hall.lock = false := by decide +kernel
theorem test_cable :
    (portAt (after (.cableRemoval 0) (timed 1 0 0)) 0).st = .retraining ∧
    cageState (after (.cableInsert 0) (after (.cableRemoval 0) (timed 1 0 0))) 0 ≠ .empty := by decide +kernel

/-! ## The host link and the mailbox -/

/-- The engine in a state with a background command in progress. -/
def busyWith (st : DevState) (b : BgCmd) : State := { engine st with mbx := { Mailbox.reset with bg := some b } }
/-- A warm start with ATTEST accepted beside it (R205, R340). -/
def attesting : State :=
  { busyWith .warmStart .warmStart with mbx := { Mailbox.reset with bg := some .warmStart, beside := some (.attest [1]) } }
/-- The engine ready with a session, IDE keys in use, and TIME and GEAR bits set. -/
def hosted : State :=
  { engine .ready with
    cxl := { Cxl.reset with link := true, session := true, ideKeyed := true, memKeyed := true, committed := true },
    heat := { Heat.reset with req := true, drop := true },
    hall := { Hall.reset with lock := true, frameErr := 7 } }

theorem witness_HostLinkAndRegisters :
    mailboxUp hosted = true ∧ hosted.power.on = true ∧ hosted.cxl.session = true ∧ hosted.cxl.ideKeyed = true ∧
    mailboxUp (engine .ready) = true ∧ (engine .ready).cxl.session = false ∧ 0x40000 ≠ 0x40180 ∧ 0x40000 ≠ 0x40304 ∧
    hosted.cxl.memKeyed = true ∧ ({ hosted.cxl with ideKeyed := false, memKeyed := false }).session = true ∧
    ({ lanes := 2, rate := 64, flits256 := true } : Channel).lanes < 4 ∧
    4 ≤ ({ lanes := 4, rate := 32, flits256 := false } : Channel).lanes ∧ hosted.cxl.msixTable.length = 4 ∧
    hosted.cxl.msixPending.length = 4 ∧ hosted.dev.physId.toNat < 2 ^ 64 := by
  decide +kernel
theorem test_link_events :
    (after (.perstNRelease { lanes := 6, rate := 40, flits256 := false }) hosted).cxl.mode =
      { lanes := 4, rate := 32, flit := 68 } ∧
    (after (.perstNRelease { lanes := 8, rate := 16, flits256 := true }) hosted).cxl.link = false ∧ (after .hotReset hosted).cxl.committed = false ∧
    (after .functionLevelReset hosted).cxl.session = true ∧ (after .hostLinkLoss hosted).cxl.link = false ∧
    (after (.hdmCommit 2 true) hosted).cxl.decErr = true ∧ (after (.hdmCommit 1 true) (engine .ready)).cxl.committed = true := by
  decide +kernel
theorem test_spdm :
    (after (.spdmMessage (.ideGo .selective)) hosted).cxl.ide = true ∧
    (after (.spdmMessage (.ideGo .cachemem)) hosted).cxl.memIde = true ∧
    (after (.spdmMessage (.ideGo .selective)) (engine .ready)).cxl.ide = false ∧
    (after (.spdmMessage (.finish true)) (engine .ready)).cxl.session = true ∧
    (after (.spdmMessage .endSession) hosted).cxl.session = false := by decide +kernel
theorem test_registers :
    (after (.gearReqClear true) hosted).heat.req = false ∧ (after (.gearDropClear false) hosted).heat.drop = true ∧
    (after .frameErrRead hosted).hall.frameErr = 0 ∧ (after .frameErrRead hosted).cxl.regOut = 0x80000007 ∧
    (after (.regWrite (.bar0 0x40180) 0x40) hosted).heat.drop = false ∧
    (after (.regWrite (.bar0 0x40304) 3) hosted).weir.hold = true ∧
    (after (.regWrite (.config 0x10) 0x12345678) hosted).cxl.bar0 = 0x12300000 := by decide +kernel
/-- An address, data and a mask bit in entry 2 of the MSI-X table; the halves of TIME_NOW and DEV_STATUS as they read. -/
theorem test_bar0 :
    bar0Read 0x50020 8 (after (.regWrite (.bar0 0x50020) 0xFEE00000) hosted) = 0xFEE00000 ∧
    bar0Read 0x5002C 4 (after (.regWrite (.bar0 0x50028) 0x41) hosted) = 0 ∧
    bar0Read 0x40104 4 { hosted with hall := { hosted.hall with ns := 0x500000007 * 2 ^ 32 } } = 5 ∧
    bar0Read 0x40100 8 { hosted with hall := { hosted.hall with ns := 0x500000007 * 2 ^ 32 } } = 0x500000007 ∧
    bar0Read 0x51000 8 hosted = 0 ∧ bar0Read 0x41180 8 hosted = 0 := by decide +kernel

/-- An idle engine whose host reads and writes unit 5, in slot 0 of stack 2. -/
def withUnit (st : DevState) : State :=
  { landingIn with
    dev := { Dev.reset with st := st, loadOpen := st == .loadOpen },
    cxl := { Cxl.reset with link := true, committed := true } }

theorem witness_HostMemoryAccess :
    State.canon (withUnit .ready) = true ∧ (withUnit .ready).stackUpsets = [] ∧ (withUnit .ready).tier.writes = [] ∧
    decodes (withUnit .ready) (5 * 32768 + 17471) 1 = true ∧ reaches (withUnit .ready) 5 = true ∧
    reaches (withUnit .ready) 7 = false ∧ reaches (withUnit .running) 5 = false ∧ decodes (withUnit .running) (5 * 32768) 1 = true ∧
    decodes (withUnit .ready) (5 * 32768 + 17472) 1 = true ∧ decodes (withUnit .loadOpen) (2 ^ 44 + 4095) 1 = true ∧
    (withUnit .loadOpen).dev.loadOpen = true ∧ decodes (withUnit .running) (2 ^ 44 + 2 ^ 35 - 1) 1 = true := by decide +kernel
theorem test_hdm_write :
    (after (.hdmWrite (5 * 32768 + 17471) [7]) (withUnit .ready)).stackMem = [(slotKey 2 0 + 17471, 7)] ∧
    (mapAt (after (.hdmWrite (5 * 32768) [7]) (withUnit .ready)) 5).dirty = true ∧
    (after (.hdmWrite (5 * 32768) [7]) (withUnit .running)).tier.drops = 1 ∧
    (after (.hdmWrite (5 * 32768 + 17471) [7, 8]) (withUnit .ready)).tier.drops = 1 := by decide +kernel
theorem test_hdm_read :
    (after (.hdmRead (5 * 32768) 1) (withUnit .running)).cxl.hdmPoison = true ∧
    (after (.hdmRead (5 * 32768) 3) (withUnit .running)).cxl.hdmData.length = 3 ∧
    (after (.hdmRead (5 * 32768 + 17472) 2) (withUnit .ready)).cxl.hdmData = [0, 0] := by decide +kernel

theorem witness_StandardCommands :
    mailboxUp (engine .ready) = true ∧ (engine .ready).mbx.bg = none ∧ (0x0001 : BitVec 16).toNat < 0xC11A ∧
    0xC1FF < (0xC200 : BitVec 16).toNat ∧ 0xC11A ≤ (0xC11A : BitVec 16).toNat ∧ (0xC1FF : BitVec 16).toNat ≤ 0xC1FF ∧
    (5 : W64) ≠ 0 := by decide +kernel
theorem witness_StandardCommands_log : 0 + 0 ≤ Config.effectsLog.length ∧ Config.effectsLog.length < 0 + (Config.effectsLog.length + 1) :=
  ⟨Nat.zero_le _, by omega⟩
theorem test_standard :
    (after (.unsupported 0xC11A) (engine .ready)).mbx.rc = 3 ∧ (after (.unsupported 0xC11A) (engine .ready)).mbx.out.length = 8 ∧
    (after (.unsupported 0x0001) (engine .ready)).mbx.out = [] ∧
    (after (.setTimestamp 9) (engine .ready)).cxl.timestamp = 9 ∧
    (after .getEventRecords (engine .ready)).cxl.msix = [1, 0, 0, 0] := by decide +kernel

theorem witness_VendorCommandsJudged :
    mailboxUp State.reset = false ∧ mailboxUp (busyWith .running (.attest [])) = true ∧
    (busyWith .running (.attest [])).mbx.bg ≠ none ∧ mailboxUp (engine .running) = true ∧ (engine .running).mbx.bg = none ∧
    (engine .running).dev.st ∉ [DevState.loadOpen] ∧ (engine .running).dev.st ∈ [DevState.running, .lender, .scrubbing, .warmStart] ∧
    (engine .ready).dev.st ∉ [DevState.loadOpen] ∧ (engine .ready).dev.st ∉ [DevState.running, .lender, .scrubbing, .warmStart] ∧
    (engine .ready).mbx.bg = none ∧ mailboxUp attesting = true ∧ attesting.mbx.bg ≠ none ∧ attesting.mbx.beside ≠ none ∧
    (busyWith .scrubbing .endLend).mbx.beside = none ∧ (busyWith .scrubbing .endLend).dev.st ∈ [DevState.scrubbing, .warmStart] ∧
    (busyWith .scrubbing .endLend).dev.st ∉ [DevState.lender] := by decide +kernel
theorem test_turned_away :
    (after .verify (busyWith .ready (.attest []))).mbx.dstatus = .busy ∧ (after .verify (engine .running)).mbx.rc = 6 ∧
    (after .verify (engine .ready)).mbx.dstatus = .state ∧ (after .verify (engine .ready)).mbx.rc = 2 ∧
    (after .verify State.reset).mbx.out = [] := by decide +kernel

theorem witness_WhileABackgroundCommandRuns :
    mailboxUp (busyWith .resident .configure) = true ∧ (busyWith .resident .configure).mbx.bg = some .configure ∧
    fieldB (zeros 24) 0 1 ≤ 2 ∧ zeroB (zeros 24) 1 7 = true ∧ (busyWith .resident .configure).dev.st ∈ startedStates ∧
    (busyWith .loadOpen .verify).mbx.bg = some .verify ∧ (busyWith .loadOpen .verify).dev.st = .loadOpen ∧
    (busyWith .configured (.relief [])).mbx.bg = some (.relief []) ∧ (busyWith .configured (.relief [])).dev.st = .configured ∧
    (busyWith .resident .configure).dev.st ∉ [DevState.scrubbing, .warmStart] ∧
    (busyWith .warmStart .warmStart).dev.st = .warmStart ∧ (busyWith .warmStart .warmStart).mbx.beside = none ∧
    (busyWith .scrubbing .endLend).dev.st = .scrubbing ∧ (busyWith .scrubbing .endLend).mbx.beside = none ∧
    mailboxUp (busyWith .scrubbing .endLend) = true ∧ mailboxUp (busyWith .warmStart .warmStart) = true ∧
    attesting.mbx.bg = some .warmStart ∧ attesting.mbx.beside ≠ none ∧
    fieldB (toLe 4 256 ++ zeros 20) 0 4 = 256 ∧ zeroB (toLe 4 256 ++ zeros 20) 4 4 = true ∧
    sext 32 (fieldB (toLe 4 (2 ^ 32 - 1000000)) 0 4) = -1000000 := by
  decide +kernel
theorem test_state_10 :
    (after (.setQuota (zeros 32)) (busyWith .warmStart .warmStart)).mbx.dstatus = .range ∧
    (after (.tqPost (zeros 32)) (busyWith .warmStart .warmStart)).mbx.dstatus = .busy ∧
    (after (.migPost (zeros 32)) (busyWith .scrubbing .endLend)).mbx.dstatus = .busy ∧
    (after (.readback (toLe 4 1 ++ zeros 4 ++ toLe 8 0 ++ toLe 8 8)) (busyWith .scrubbing .endLend)).mbx.beside =
      some (.readback [(0, 8)]) ∧
    (after (.readback (toLe 4 1 ++ zeros 4 ++ toLe 8 0 ++ toLe 8 8)) attesting).mbx.dstatus = .busy ∧
    (after .attestDone attesting).mbx.bg = some .warmStart := by decide +kernel
theorem test_freeze_stops_verify :
    freezesWith 0x01 .freeze (busyWith .loadOpen .verify) = true ∧
    (after .freeze (busyWith .loadOpen .verify)).mbx.bg = none ∧
    (after .freeze (busyWith .loadOpen .verify)).mbx.bgRes.dstatus = .state ∧
    (after .bgResult (busyWith .loadOpen .verify)).mbx.rc = 0 := by decide +kernel

/-- The engine with a manifest resident and 4 bytes of a patch of 8 received. -/
def halfPatch : State := { engine .resident with mbx := { Mailbox.reset with partPatch := some (8, [1, 2, 3, 4]) } }
/-- A RELIEF chunk. -/
def chunk (off total : Nat) (d : Bytes) : Bytes := toLe 4 off ++ toLe 4 total ++ d

theorem witness_ReliefChunks :
    takesCommand [.resident, .configured] halfPatch ∧ takesCommand [.resident, .configured] (engine .resident) ∧
    fieldB (chunk 0 8 [1]) 0 4 = 0 ∧ 0 + (chunk 0 8 [1]).length - 8 < fieldB (chunk 0 8 [1]) 4 4 ∧
    fieldB (chunk 4 8 [5, 6, 7, 8]) 0 4 ≠ 0 ∧ halfPatch.mbx.partPatch = some (fieldB (chunk 4 8 [5, 6, 7, 8]) 4 4, [1, 2, 3, 4]) ∧
    fieldB (chunk 4 8 [5, 6, 7, 8]) 0 4 + ((chunk 4 8 [5, 6, 7, 8]).drop 8).length = fieldB (chunk 4 8 [5, 6, 7, 8]) 4 4 ∧
    (engine .resident).mbx.partPatch = none ∧ [1, 2, 3, 4].length ≠ fieldB (chunk 5 8 []) 0 4 ∧
    fieldB (chunk 4 8 (zeros 5)) 4 4 < fieldB (chunk 4 8 (zeros 5)) 0 4 + ((chunk 4 8 (zeros 5)).drop 8).length := by
  unfold takesCommand; decide +kernel
theorem test_relief_chunks :
    (after (.relief (chunk 4 8 [5, 6, 7, 8])) halfPatch).mbx.bg = some (.relief [1, 2, 3, 4, 5, 6, 7, 8]) ∧
    (after (.relief (chunk 0 8 [1])) halfPatch).mbx.partPatch = some (8, [1]) ∧
    (after (.relief (chunk 5 8 [])) halfPatch).mbx.partPatch = none ∧
    (after (.relief (chunk 4 8 (zeros 5))) halfPatch).mbx.dstatus = .range := by decide +kernel

/-! ## Manifests -/

/-- Bytes of the smallest manifest, by their places: header, two section-table entries, SCHED with its header and two
weirs of deadline 1,000 lc, an empty TIER section (R183 to R185, R190, R191). -/
def manifestText : List (Nat × Nat) :=
  [(0x00, 0x50), (0x01, 0x4C), (0x02, 0x59), (0x03, 0x4D), (0x05, 0x01), (0x09, 0x10), (0x10, 0x02)] ++
  [(0x80, 0x04), (0x88, 0xC0), (0x90, 0x58), (0xA0, 0x03), (0xA8, 0x40), (0xA9, 0x01)] ++
  [(0xC1, 0x04), (0xC4, 0x20), (0xCA, 0x06), (0xCC, 12), (0xCD, 15), (0xCE, 20), (0xCF, 30), (0xD0, 0x02)] ++
  [(0xE8, 0x01), (0xE9, 0x04), (0xEC, 0x10), (0xF0, 0x01), (0xF8, 0xE8), (0xF9, 0x03)] ++
  [(0x100, 0x01), (0x101, 0x04), (0x104, 0x10), (0x108, 0x02), (0x110, 0xE8), (0x111, 0x03)]
/-- The engine with that manifest in its manifest region, in a state, with a background command. -/
def loaded (st : DevState) (b : Option BgCmd) (r : Option Resident) : State :=
  { engine st with
    stackMem := manifestText.map (fun e => (0x1170000000 + e.1, BitVec.ofNat 8 e.2)),
    mbx := { Mailbox.reset with bg := b }, resident := r }
/-- Its bytes. -/
def manifest : Bytes := manifestBytes (loaded .loadOpen none none) 11952
/-- Its declaration, and the manifest as it is resident. -/
def declared : LoadDecl := { key := zeros 32, digest := manifestDigest manifest, size := 11952 }
def residentM : Resident :=
  { key := zeros 32, ownerHash := sha256 (zeros 32), digest := manifestDigest manifest, size := 11952, patches := [] }
/-- VERIFY in progress over that declaration; CONFIGURE over that resident manifest. -/
def verifying : State := { loaded .loadOpen (some .verify) none with decl := some declared }
def configuring : State := loaded .resident (some .configure) (some residentM)
theorem manifestBytes_of (s t : State) (n : Nat) (h : s.stackMem = t.stackMem) : manifestBytes s n = manifestBytes t n := by
  unfold manifestBytes; rw [h]
theorem verifying_bytes : manifestBytes verifying declared.size = manifest := by
  have h : declared.size = 11952 := by simp only [declared]
  rw [h]
  exact manifestBytes_of verifying (loaded .loadOpen none none) 11952 (by simp only [verifying, loaded])
theorem configuring_bytes : residentBytes configuring residentM = manifest := by
  have h : residentM.size = 11952 := by simp only [residentM]
  rw [residentBytes, h]
  exact manifestBytes_of configuring (loaded .loadOpen none none) 11952 (by simp only [configuring, loaded])

/-- VERIFY passes wherever the signature of R192 verifies (log entry 14: the spec names FIPS 205 and gives no algorithm). -/
theorem witness_ManifestCommands_verify (h : Config.slhVerify declared.key (manifestDigest manifest)
      ((manifest.drop (hdrBody manifest)).take sigSize) = true) :
    verifying.mbx.bg = some .verify ∧ verifying.decl = some declared ∧
    verifyVerdict declared (manifestBytes verifying declared.size) = none := by
  refine ⟨rfl, rfl, ?_⟩
  rw [verifying_bytes]
  have h1 : headerOk manifest = true := by decide +kernel
  have h2 : decide (declared.size < hdrBody manifest + sigSize) = false := by decide +kernel
  have h3 : (manifestDigest manifest != declared.digest) = false := by simp only [declared, bne_self_eq_false]
  have h4 : tableVerdict manifest = none := by decide +kernel
  have h5 : failOver (framingVerdict manifest) (sections manifest) = none := by decide +kernel
  have h6 : reliefVerdict declared.key manifest = none := by decide +kernel
  simp only [verifyVerdict, h1, h2, h3, h4, h5, h6, h]
  rfl
theorem configuring_paths : pathsVerdict manifest (weirTable manifest) [] = none := by decide +kernel
/-- CONFIGURE passes. -/
theorem witness_ManifestCommands_configure :
    configuring.mbx.bg = some .configure ∧ configuring.resident = some residentM ∧
    checkVerdict configuring residentM (residentBytes configuring residentM) = none := by
  refine ⟨rfl, rfl, ?_⟩
  rw [configuring_bytes]
  have h1 : schedVerdict manifest (placedClusters configuring residentM.patches []) = none := by decide +kernel
  have h2 : fieldSects manifest = [] := by decide +kernel
  have h3 : sectionsOf 1 manifest = [] := by decide +kernel
  have h4 : sectionsOf 3 manifest = [{ no := 1, type := 3, index := 0, off := 0x140, size := 0 }] := by
    decide +kernel
  have h5 : sectionsOf 2 manifest = [] := by decide +kernel
  have h6 : manifestGates manifest = [] := by decide +kernel
  have h7 : gatesVerdict manifest { no := 1, type := 3, index := 0, off := 0x140, size := 0 } = none := by decide +kernel
  have h9 : tierVerdict configuring manifest (weirTable manifest) [] = none := by decide +kernel
  have h10 : modeVerdict manifest [] = none := by decide +kernel
  have h11 : gangsVerdict (hdrMode manifest) [] = none := by decide +kernel
  have h12 : pathsVerdict manifest (weirTable manifest) [] = none := configuring_paths
  simp only [checkVerdict, h1, h2, h3, h5, h6, h9, h10, h11]
  have h13 : (List.eraseDups [([] : List FieldSect), []]) = [[]] := by decide
  simp [h4, h7, h11, h12, h13, firstFail, failOver, bothKinds, injected, failIf, residentM, selected, placedPatches]

/-- A manifest with a FIELD section besides: field 17, RESERVE_U 31, a CLUSTER at (20, 5) (R186). -/
def fieldText : List (Nat × Nat) :=
  [(0x00, 0x50), (0x01, 0x4C), (0x02, 0x59), (0x03, 0x4D), (0x05, 0x01), (0x09, 0x10), (0x10, 0x03)] ++
  [(0x80, 0x04), (0x89, 0x01), (0x90, 0x58), (0xA0, 0x03), (0xA8, 0x80), (0xA9, 0x01)] ++
  [(0xC0, 0x01), (0xC2, 17), (0xC8, 0x80), (0xC9, 0x01), (0xD0, 0x20)] ++
  [(0x101, 0x04), (0x104, 0x20), (0x10A, 0x06), (0x10C, 12), (0x10D, 15), (0x10E, 20), (0x10F, 30), (0x110, 0x02)] ++
  [(0x128, 0x01), (0x129, 0x04), (0x12C, 0x10), (0x130, 0x01), (0x138, 0xE8), (0x139, 0x03)] ++
  [(0x140, 0x01), (0x141, 0x04), (0x144, 0x10), (0x148, 0x02), (0x150, 0xE8), (0x151, 0x03)] ++
  [(0x181, 0x01), (0x184, 0x08), (0x188, 17), (0x189, 31), (0x190, 0x01), (0x191, 0x01), (0x194, 0x08), (0x198, 20), (0x199, 5)]
/-- A patch for field 17 that moves (20, 5) to (31, 5): a directory of version 1, the S0 program WAIT 0; WEIR 2; STOP at
0x100 and one slot list in each route bank (R108, R118, R119, R143, R193, R194). -/
def patchM : Bytes :=
  bytesAt 232
    ([(0, 0x50), (1, 0x4C), (2, 0x59), (3, 0x52), (4, 17), (5, 1), (8, 0xB4), (16, 0xBF), (24, 0x88)] ++
     [(0x60, 0x01), (0x61, 0x01), (0x64, 8), (0x68, 31), (0x69, 5)] ++
     [(0x70, 0x02), (0x71, 0x01), (0x74, 16), (0x7F, 0x10), (0x80, 1), (0x85, 0x01), (0x86, 12)] ++
     [(0x88, 0x02), (0x89, 0x01), (0x8C, 24), (0x91, 0x01), (0x97, 0x10), (0x9B, 0x48), (0x9D, 0x08), (0x9F, 0x6C), (0xA3, 0x70)] ++
     [(0xA8, 0x02), (0xA9, 0x01), (0xAC, 24), (0xB5, 0x01), (0xB7, 0x10), (0xB8, 1), (0xC0, 3)] ++
     [(0xC8, 0x02), (0xC9, 0x01), (0xCC, 24), (0xD5, 0x02), (0xD7, 0x10), (0xD8, 1), (0xE0, 3)]) ++ zeros 7856
/-- RELIEF in progress with that patch, over that manifest. -/
def residentF : Resident := { residentM with digest := zeros 32 }
def relieving : State :=
  { loaded .resident (some (.relief patchM)) (some residentF) with
    stackMem := fieldText.map (fun e => (0x1170000000 + e.1, BitVec.ofNat 8 e.2)) }

/-- A weir of that manifest, and its FIELD section. -/
def weirM (n : Nat) : WeirEntry :=
  { num := n, relay := false, sent := false, deadline := 1000, relayAfter := 0, conds := [], digs := [] }
def fieldM : FieldSect :=
  { sect := 2, off := 0x180, field := 17, reserveU := 31,
    groups := [({ u := 20, v := 5, off := 0x190, body := [20, 5, 0, 0, 0, 0, 0, 0], recs := [] }, Cluster.reset)] }
/-- The cluster that the patch leaves at (31, 5). -/
def patchCluster : Cluster := { Cluster.reset with smem := [(0, 1), (5, 1), (6, 12), (259, 0x48), (261, 0x08), (263, 0x6C), (267, 0x70)], rt0 := [(0, 1), (1, 3)], rt1 := [(0, 1), (1, 3)] }
/-- Its group without the cluster: the patch starts behind body, SIG and the 16-byte RELIEF header (R183, R193). -/
def patchAlone : Group :=
  { u := 31, v := 5, off := 11968 + 0x60, body := [31, 5, 0, 0, 0, 0, 0, 0],
    recs := [
      { type := 0x102, off := 11968 + 0x70, body := [0, 0, 0, 0, 0, 0, 0, 0x10] ++ [1, 0, 0, 0, 0, 1, 12, 0] },
      { type := 0x102, off := 11968 + 0x88,
        body := [0, 1, 0, 0, 0, 0, 0, 0x10] ++ [0, 0, 0, 0x48, 0, 0x08, 0, 0x6C] ++ [0, 0, 0, 0x70, 0, 0, 0, 0] },
      { type := 0x102, off := 11968 + 0xA8, body := [0, 0, 0, 0, 0, 1, 0, 0x10] ++ [1, 0, 0, 0, 0, 0, 0, 0] ++ [3, 0, 0, 0, 0, 0, 0, 0] },
      { type := 0x102, off := 11968 + 0xC8, body := [0, 0, 0, 0, 0, 2, 0, 0x10] ++ [1, 0, 0, 0, 0, 0, 0, 0] ++ [3, 0, 0, 0, 0, 0, 0, 0] }] }
theorem patchCluster_bank (b : Bool) :
    bankVerdict (placeOf noSect 17 patchAlone) (clusterIn 17 31 5) patchCluster b = none := by
  cases b <;> decide +kernel

theorem relief_g0 : weirTable (residentBytes relieving residentF) = [weirM 1, weirM 2] := by decide +kernel
theorem relief_g1 : runBlockAddr (residentBytes relieving residentF) = 0x60000 := by decide +kernel
theorem relief_g2 : sectOf (fieldSects (residentBytes relieving residentF)) (patchField patchM) = some fieldM := by decide +kernel
theorem relief_g3 : groupRecs (patchRecs 11968 patchM) = ([], [patchAlone]) := by decide +kernel
theorem relief_g4 : patchAlone.image = patchCluster := by decide +kernel
theorem patchCluster_scratch (p : Place) (b : Bool) (h : b = false) : scratchVerdict p patchCluster b = none := by
  have h0 : sentScratch patchCluster = 0 := by decide +kernel
  have hm (a n : Nat) : meetsScratch patchCluster a n = false := by simp [meetsScratch, h0]
  have ht : touchesScratch patchCluster = false := by simp [touchesScratch, routeScratch, hm]
  simp [scratchVerdict, firstFail, failAt, failWord, h, h0, ht]
theorem relief_cluster :
    clusterVerdict [weirM 1, weirM 2] 0x60000 (placeOf noSect 17 patchAlone) (clusterIn 17 31 5)
      (leadImage [(patchAlone, patchCluster)] (patchAlone, patchCluster)) patchCluster = none := by
  have h1 : dirReserved patchCluster = [] := by decide +kernel
  have h2 : (dirLayoutOk patchCluster == false) = false := by decide +kernel
  have h3 : descVerdict (placeOf noSect 17 patchAlone) patchCluster = none := by decide +kernel
  have h4 : scalarVerdict (placeOf noSect 17 patchAlone) (leadImage [(patchAlone, patchCluster)] (patchAlone, patchCluster))
      patchCluster [weirM 1, weirM 2] .s0 = none := by decide +kernel
  have h5 : scalarVerdict (placeOf noSect 17 patchAlone) patchCluster patchCluster [weirM 1, weirM 2] .s1 = none := by
    decide +kernel
  have h6 : vectorVerdict (placeOf noSect 17 patchAlone) patchCluster = none := by decide +kernel
  have h7 : templateVerdict (placeOf noSect 17 patchAlone) patchCluster [weirM 1, weirM 2] 0x60000 = none := by decide +kernel
  have h8 : hasSentinel (leadImage [(patchAlone, patchCluster)] (patchAlone, patchCluster)) = false := by decide +kernel
  simp [clusterVerdict, h1, h2, h3, h4, h5, h6, h7, patchCluster_bank, patchCluster_scratch _ _ h8, firstFail, failAt, failOver]
theorem relief_g5 :
    groupsVerdict [weirM 1, weirM 2] 0x60000 noSect 17 [(patchAlone, patchCluster)] [(patchAlone, patchCluster)] = none := by
  have h1 : groupVerdict (placeOf noSect 17 patchAlone) 0x60000 patchAlone patchCluster = none := by decide +kernel
  have h2 := relief_cluster
  have h3 : clusterIn 17 patchAlone.u patchAlone.v = clusterIn 17 31 5 := rfl
  simp [groupsVerdict, failOver, h1, h3, h2, firstFail]
theorem relief_g6 : patched fieldM 11968 patchM = [(patchAlone, patchCluster)] := by
  simp only [patched, patchGroups, relief_g3, withImages, List.map, relief_g4]; decide +kernel
theorem relief_patch : patchVerdict (residentBytes relieving residentF)
    (fieldSects (residentBytes relieving residentF)) 11968 patchM = none := by
  have h1 : hdrMode (residentBytes relieving residentF) = 0 := by decide +kernel
  have h2 : fieldSects (residentBytes relieving residentF) = [fieldM] := by decide +kernel
  have h3 : withGroups [fieldM] fieldM [(patchAlone, patchCluster)] = [{ fieldM with groups := [(patchAlone, patchCluster)] }] := by
    simp only [withGroups, List.map, if_pos]
  have h4 : gangsVerdict 0 [{ fieldM with groups := [(patchAlone, patchCluster)] }] = none := by decide +kernel
  have h5 : pathsVerdict (residentBytes relieving residentF) [weirM 1, weirM 2]
      [{ fieldM with groups := [(patchAlone, patchCluster)] }] = none := by decide +kernel
  simp only [patchVerdict, relief_g0, relief_g1, relief_g2, patchGroups, relief_g3, withImages, List.map, relief_g4, relief_g6]
  rw [h2, h1, h3, h4, h5, show fieldM.field = 17 from rfl, relief_g5]
  decide +kernel
/-- RELIEF passes wherever the patch's signature verifies (log entry 14). -/
theorem witness_ManifestCommands_relief
    (h : Config.slhVerify residentF.key (sha256 (patchM.take (0x60 + patchBody patchM))) (patchM.drop (0x60 + patchBody patchM)) = true) :
    relieving.mbx.bg = some (.relief patchM) ∧ relieving.resident = some residentF ∧ relieving.dev.st = .resident ∧
    reliefCheck relieving residentF (residentBytes relieving residentF) patchM = none := by
  refine ⟨rfl, rfl, rfl, ?_⟩
  have h1 : patchFramed patchM = true := by decide +kernel
  have h2 : ((patchM.drop 32).take 32 == residentF.digest) = true := by decide +kernel
  have h3 := relief_patch
  have h4 : (decide (1024 < (storePatch residentF.patches patchM).length) ||
      decide (maxManifest < totalSize residentF (storePatch residentF.patches patchM))) = false := by decide +kernel
  have h5 : patchStart { residentF with patches := storePatch residentF.patches patchM } patchM = 11968 := by decide +kernel
  simp only [reliefCheck, patchStep1, h1, h2, h4, h5, h3, h]
  rfl


/-- A group that writes 8 bytes of S-mem and fills 16 bytes of data memory (R187). -/
def filledGroup : Group :=
  { u := 20, v := 5, off := 0, body := zeros 8,
    recs := [{ type := 0x102, off := 0, body := toLe 8 (2 ^ 60) ++ [1, 0, 0, 0, 0, 1, 12, 0] },
             { type := 0x103, off := 0, body := toLe 8 0x80000 ++ toLe 8 16 ++ [1, 2, 3, 4, 5, 6, 7, 8] }] }

theorem witness_ManifestCommands_group :
    (filledGroup.recs.filter isStore).all storeOk = true ∧ apart ((filledGroup.recs.filter isStore).map recRange) = true ∧
    (filledGroup.recs.map (fun r => ((recSpace (recAddr r)).map Prod.fst, recOffset (recAddr r), recLength r))) =
      [(some 1, 0, 8), (some 0, 0x80000, 16)] ∧
    (some (5 : W128)).isSome = true ∧ sentScratch (clusterAt atRoutine 15940) ≠ 0 := by decide +kernel
/-- The last byte of each record, and the byte after it. -/
theorem test_group_image :
    Tab.get 0 filledGroup.image.smem 6 = 12 ∧ Tab.get 0 filledGroup.image.mem 0x8000F = 8 ∧
    Tab.get 0 filledGroup.image.mem 0x80010 = 0 ∧ Tab.get 0 filledGroup.image.mem 0x80008 = 1 := by decide +kernel

/-- A LOAD payload: key and digest zero, a size. -/
def loadOf (size : Nat) : Bytes := zeros 32 ++ toLe 8 size ++ zeros 32
/-- The manifest of that declaration resident. -/
def keeping : State := { engine .configured with resident := some { residentM with digest := zeros 32 } }
/-- The engine with VERIFY over an empty manifest region, and with CONFIGURE and RELIEF over it. -/
def verifyingNothing : State := { busyWith .loadOpen .verify with decl := some { key := [], digest := [], size := 8 } }
def residentNothing : Resident := { key := [], ownerHash := [], digest := [], size := 8, patches := [] }
def configuringNothing : State := { busyWith .resident .configure with resident := some residentNothing }
def relievingNothing : State := { busyWith .resident (.relief []) with resident := some residentNothing }

theorem witness_ManifestCommands :
    mailboxUp (engine .ready) = true ∧ (engine .ready).dev.st ∈ startedStates ∧
    takesCommand [.ready, .resident, .configured] (engine .ready) ∧ takesCommand [.ready, .resident, .configured] keeping ∧
    (declOf (loadOf 4088)).size < 4096 ∧ 4096 ≤ (declOf (loadOf 4096)).size ∧ (declOf (loadOf 4096)).size ≤ maxManifest ∧
    (declOf (loadOf 4096)).size % 8 = 0 ∧ keepsResident (engine .ready) (declOf (loadOf 4096)) = false ∧
    keepsResident keeping (declOf (loadOf 4096)) = true ∧ takesCommand [.loadOpen] (engine .loadOpen) ∧
    takesCommand [.resident, .configured] (engine .resident) ∧
    takeChunk none (chunk 0 8 [1]) = some (8, [1]) ∧ takeChunk none (chunk 0 1 [1]) = some (1, [1]) ∧
    takeChunk none (chunk 4 8 [1]) = none := by unfold takesCommand; decide +kernel
theorem witness_ManifestCommands_fail :
    verifyVerdict { key := [], digest := [], size := 8 } (manifestBytes verifyingNothing 8) =
      some { code := 1, sect := noSect, off := 0, x := 0, y := 0, smem := none } ∧
    (checkVerdict configuringNothing residentNothing (residentBytes configuringNothing residentNothing)).isSome = true ∧
    (reliefCheck relievingNothing residentNothing (residentBytes relievingNothing residentNothing) []).isSome = true := by
  decide +kernel
theorem test_load :
    (after (.load (loadOf 4088)) (engine .ready)).mbx.dstatus = .range ∧ (after (.load (loadOf 4096)) (engine .ready)).dev.st = .loadOpen ∧
    (after (.load (loadOf 4096)) keeping).dev.st = .configured ∧ (after (.load (loadOf 4096)) keeping).mbx.out = zeros 8 ++ [1, 0, 0, 0, 0, 0, 0, 0] := by
  decide +kernel
theorem witness_ManifestCommands_idle :
    isSafe (idlePorts (residentBytes configuring residentM) configuring) = false ∧
    State.canon (idlePorts (residentBytes configuring residentM) configuring) = true := by decide +kernel
theorem test_verify :
    (after .verify (engine .loadOpen)).mbx.bg = some .verify ∧ (after .verifyDone verifyingNothing).dev.st = .ready ∧
    (after .verifyDone verifyingNothing).mbx.bgRes.check = 1 := by decide +kernel
theorem test_configure :
    (after .configure (engine .resident)).mbx.bg = some .configure ∧ (after .configureDone configuringNothing).dev.st = .resident ∧
    (after .configureDone configuringNothing).mbx.bgRes.dstatus = .check ∧
    (after .reliefDone relievingNothing).mbx.bgRes.check = 9 := by decide +kernel

/-! ## Runs -/

/-- The engine configured with that image and an identity. -/
def configured5 : State :=
  { engine .configured with
    image := some image, clusters := [(15940, cluster)], dev := { Dev.reset with st := .configured, ident := true } }
/-- A RUN payload with a step and a gear. -/
def runOfGear (step gear : Nat) : Bytes := toLe 8 step ++ zeros 32 ++ toLe 8 0 ++ toLe 1 gear ++ zeros 7 ++ zeros 8
/-- A run that awaits weir 7, with the host condition open. -/
def awaiting : State := running cluster
/-- The same with the release of weir 7 recorded. -/
def recorded : State := { awaiting with weir := { awaiting.weir with hostRecs := [7] } }

theorem witness_RunCommands :
    takesCommand [.configured] configured5 ∧ takesCommand [.configured] (engine .configured) ∧
    (engine .configured).dev.ident = false ∧ configured5.dev.ident = true ∧ 2 ^ 48 ≤ fieldB (runOfGear (2 ^ 48) 0) 0 8 ∧
    3 < fieldB (runOfGear 0 4) 48 1 ∧ runStatus configured5 (runOfGear (2 ^ 48 - 1) 3) = .ok ∧ configured5.image = some image ∧
    image.parts.Nodup ∧ (∀ c ∈ image.parts, (clusterAt configured5 c).ctlUpsets = []) ∧ takesCommand [.running] awaiting ∧
    takesCommand [.running] recorded ∧ releaseStatus awaiting (toLe 2 7 ++ zeros 6) = .ok ∧
    zeroB (toLe 2 7 ++ zeros 6) 2 6 = true ∧ fieldB (toLe 2 7 ++ zeros 6) 0 2 ∈ recorded.weir.hostRecs ∧
    mailboxUp awaiting = true ∧ awaiting.dev.st ∈ [DevState.loadOpen, .resident, .configured, .running, .warmStart] := by
  unfold takesCommand; decide +kernel
theorem test_run :
    (after (.run (runOfGear 5 1)) configured5).dev.st = .running ∧
    (clusterAt (after (.run (runOfGear 5 1)) configured5) 15940).s0.st = .atWeir ∧
    leNat (Mem.read 0 (clusterAt (after (.run (runOfGear 5 1)) configured5) 15940).mem 0x90000 8) = 5 ∧
    (after (.run (runOfGear 5 4)) configured5).mbx.dstatus = .range ∧
    (after (.run (runOfGear 5 1)) (engine .configured)).mbx.dstatus = .noIdentity := by decide +kernel
theorem test_weir_release :
    (after (.weirRelease (toLe 2 7 ++ zeros 6)) awaiting).weir.hostRecs = [7] ∧
    (after (.weirRelease (toLe 2 7 ++ zeros 6)) recorded).mbx.dstatus = .duplicate ∧
    freezesWith 0x01 .freeze awaiting = true := by decide +kernel

/-! ## Warm start, inspection, identity, lending -/

/-- The engine in the safe state with a cluster, a tripped field, and its sensors at a reading. -/
def tripped (q : Int) : State :=
  { engine .safe with
    safe := { SafeReg.reset with safe := true, cause := 0x20 }, clusters := [(15940, cluster)],
    heat := { Heat.reset with
      fields := [(3, { FieldReg.reset with supply := .thermalTrip })], sensors := [(sensorNumber (.junction 3 0), q)] } }
/-- The same in salvage. -/
def salvaging : State := { tripped 4 with dev := { Dev.reset with st := .salvage } }
/-- Salvage with a host list at work; an idle engine with one. -/
def salvagingBusy : State := { salvaging with tier := { Tier.reset with hostQ := [migInst [migEntry 1]] } }
def listing : State := { engine .ready with tier := { Tier.reset with hostQ := [migInst [migEntry 1]] } }
/-- A warm start in progress. -/
def warming (r : Option Resident) : State := { busyWith .warmStart .warmStart with resident := r }

theorem witness_WarmStartAndSalvage :
    State.canon (tripped 339) = true ∧ (∀ e ∈ (tripped 339).sluices, e.2.st = .closed) ∧ (tripped 339).queues = [] ∧
    takesCommand [.ready, .resident, .configured, .safe] (tripped 339) ∧ fieldB [4] 0 1 = 4 ∧ fieldB [0] 0 1 = 0 ∧
    fieldB [1] 0 1 = 1 ∧ fieldB [2] 0 1 = 2 ∧ (trippedFields (tripped 340)).any (fieldHot (tripped 340)) = true ∧
    (trippedFields (tripped 339)).any (fieldHot (tripped 339)) = false ∧ State.canon listing = true ∧
    listsExecute listing = true ∧ takesCommand [.ready, .resident, .configured, .safe] listing ∧
    takesCommand [.salvage] salvaging ∧ salvaging.tier.hostQ = [] ∧ takesCommand [.salvage] salvagingBusy ∧
    State.canon salvaging = true ∧ (trippedFields salvaging).any (fieldHot salvaging) = false ∧
    State.canon salvagingBusy = true ∧ salvagingBusy.tier.hostQ ≠ [] ∧
    (warming none).dev.st = .warmStart ∧ (warming none).mbx.bg = some .warmStart ∧ State.canon (warming none) = true := by
  unfold takesCommand; decide +kernel
theorem test_warm_start :
    (after (.warmStart [0]) (tripped 339)).dev.st = .warmStart ∧ (after (.warmStart [0]) (tripped 339)).safe = SafeReg.reset ∧
    (clusterAt (after (.warmStart [0]) (tripped 339)) 15940).s0 = ScalarCore.reset ∧
    (clusterAt (after (.warmStart [0]) (tripped 339)) 15940).mem = cluster.mem ∧
    (after (.warmStart [0]) (tripped 340)).mbx.dstatus = .state ∧ (after (.warmStart [1]) (tripped 339)).dev.st = .salvage ∧
    (after (.warmStart [0]) listing).mbx.dstatus = .busy := by decide +kernel
theorem test_continue :
    (after .contWarm salvaging).dev.st = .warmStart ∧ (after (.warmStart [2]) salvaging).dev.st = .warmStart ∧
    (after .contWarm salvagingBusy).mbx.dstatus = .busy := by decide +kernel
theorem test_warm_start_done :
    (after (.warmStartDone { lanes := [], badMargin := [], stillOff := [] }) (warming none)).dev.st = .ready ∧
    (after (.warmStartDone { lanes := [], badMargin := [], stillOff := [] }) (warming (some residentNothing))).dev.st = .resident := by
  decide +kernel

/-- An engine with one event logged, and list 32768 queued. -/
def inspected : State := logEvent 0x0500 0 0 0 [1] listing
/-- A READBACK payload: one range of 8 bytes of cluster (100, 45). -/
def readbackOf (n : Nat) : Bytes := toLe 4 n ++ zeros 4 ++ toLe 8 0 ++ toLe 8 8
/-- READBACK and ATTEST in progress. -/
def readingBack : State := busyWith .ready (.readback [(0, 8)])

theorem witness_InspectionCommands :
    takesCommand [.ready, .loadOpen, .resident, .configured, .safe, .lender, .scrubbing, .warmStart, .salvage] inspected ∧
    fieldB (readbackOf 0) 0 4 = 0 ∧ 256 < fieldB (readbackOf 257) 0 4 ∧ 1 ≤ fieldB (readbackOf 256) 0 4 ∧
    fieldB (readbackOf 256) 0 4 ≤ 256 ∧ zeroB (readbackOf 1) 4 4 = true ∧ readingBack.mbx.bg = some (.readback [(0, 8)]) ∧
    takesCommand startedStates inspected ∧ (busyWith .ready (.attest [1])).mbx.bg = some (.attest [1]) ∧
    readingBack.mbx.reading = some (.readback [(0, 8)]) ∧ attesting.mbx.reading = some (.attest [1]) ∧ readingBack.tier.writes = [] ∧
    mailboxUp inspected = true ∧ fieldB (toLe 1 0 ++ zeros 7 ++ toLe 8 0 ++ toLe 4 9) 0 1 ≤ 2 ∧
    zeroB (toLe 1 0 ++ zeros 7 ++ toLe 8 0 ++ toLe 4 9) 1 7 = true := by unfold takesCommand; decide +kernel
theorem test_inspection :
    (after (.migStatus (toLe 2 32768)) inspected).mbx.out = zeros 8 ++ [2, 0, 0, 0] ++ zeros 12 ∧
    (after (.logRead (toLe 1 0 ++ zeros 7 ++ toLe 8 0 ++ toLe 4 9)) inspected).mbx.out.length = 56 ∧
    (after (.readback (readbackOf 257)) inspected).mbx.dstatus = .range ∧
    (after (.readback (readbackOf 1)) inspected).mbx.bg = some (.readback [(0, 8)]) ∧
    (after .attestDone (busyWith .ready (.attest [1]))).mbx.bg = none := by decide +kernel

/-- A SET_IDENTITY payload: tag 9, epoch 3, a rank of N. -/
def identityOf (rank n : Nat) : Bytes := toLe 2 9 ++ toLe 1 3 ++ [0] ++ toLe 2 rank ++ toLe 2 0 ++ toLe 2 n ++ zeros 6
/-- A LEND payload: port 0, tag 5, epoch 1, a range of slots. -/
def lendOf (first count : Nat) : Bytes := toLe 3 1 ++ [0] ++ toLe 2 5 ++ toLe 1 1 ++ [0] ++ toLe 8 first ++ toLe 8 count
/-- An engine at the end of a scrub of slots 10 and 11, with a byte in slots 9 and 10 of stack 0. -/
def scrubbing : State :=
  { busyWith .scrubbing .endLend with
    stackMem := [(slotKey 0 9, 1), (slotKey 0 10, 2)], tier := lender.tier }

theorem witness_IdentityAndLending :
    State.canon (engine .ready) = true ∧ (∀ e ∈ (engine .ready).sluices, e.2.st = .closed) ∧ (engine .ready).queues = [] ∧
    takesCommand [.ready, .resident, .configured, .safe] (engine .ready) ∧ listsExecute (engine .ready) = false ∧
    fieldB (identityOf 5 5) 8 2 ≤ fieldB (identityOf 5 5) 4 2 ∧ fieldB (identityOf 1022 1023) 8 2 ≤ 1023 ∧
    fieldB (identityOf 1022 1023) 4 2 < fieldB (identityOf 1022 1023) 8 2 ∧ zeroB (identityOf 0 1) 3 1 = true ∧
    zeroB (identityOf 0 1) 10 6 = true ∧ State.canon listing = true ∧ listsExecute listing = true ∧
    takesCommand [.ready, .resident] listing ∧ takesCommand [.ready, .resident] (engine .ready) ∧ zeroB (lendOf 10 2) 3 1 = true ∧
    zeroB (lendOf 10 2) 7 1 = true ∧ 67600496 < fieldB (lendOf 67600495 2) 8 8 + fieldB (lendOf 67600495 2) 16 8 ∧
    fieldB (lendOf 67600494 2) 8 8 + fieldB (lendOf 67600494 2) 16 8 ≤ 67600496 ∧ takesCommand [.lender] lender ∧
    State.canon lender = true ∧ (engine .ready).tier.writes = [] ∧ lender.tier.writes = [] ∧ scrubbing.tier.writes = [] ∧
    listing.tier.writes = [] ∧ lender.queues = [] ∧ State.canon scrubbing = true ∧ scrubbing.dev.st = .scrubbing ∧
    scrubbing.tier.lend.isSome = true := by unfold takesCommand; decide +kernel
theorem test_set_identity :
    (after (.setIdentity (identityOf 5 5)) (engine .ready)).mbx.dstatus = .range ∧
    (after (.setIdentity (identityOf 1022 1023)) (engine .ready)).dev.ident = true ∧
    (portAt (after (.setIdentity (identityOf 0 1)) (engine .ready)) 23).tag = 9 := by decide +kernel
theorem test_lend :
    (after (.lend (lendOf 67600495 2)) (engine .ready)).mbx.dstatus = .range ∧
    (after (.lend (lendOf 10 2)) (engine .ready)).dev.st = .lender ∧
    (portAt (after (.lend (lendOf 10 2)) (engine .ready)) 0).st = .training ∧
    (after .endLend lender).dev.st = .scrubbing ∧ (after .scrubComplete scrubbing).stackMem = [(slotKey 0 9, 1)] ∧
    (after .scrubComplete scrubbing).dev.st = .ready := by decide +kernel

/-! ## The host's commands on objects -/

/-- A SET_QUOTA payload: tier, account, flags, limit, bundle, base. -/
def quota (tier a fl limit bundle base : Nat) : Bytes :=
  toLe 1 tier ++ toLe 1 a ++ toLe 1 fl ++ zeros 5 ++ toLe 8 limit ++ toLe 1 bundle ++ zeros 7 ++ toLe 8 base
/-- The bytes of an ALLOC of a number of units from 5 on (R218). -/
def allocBytes (n : Nat) : Bytes := toLe 16 (5 * 2 ^ 124 + n * 2 ^ 100 + 5 * 2 ^ 48 + 7)
/-- A MIG_POST payload with one entry. -/
def migOf (l n : Nat) : Bytes := toLe 2 l ++ [0, 0] ++ toLe 4 n ++ allocBytes 2
/-- The 64 bytes of a MARKER descriptor with tag 33 (R258). -/
def markerBytes : Bytes := [6, 0, 0, 0, 33, 0, 0, 0, 1, 0, 0, 0] ++ zeros 52
/-- A TQ_POST of it on queue 4. -/
def postOf : Bytes := toLe 2 4 ++ [1, 0] ++ toLe 4 7 ++ markerBytes
/-- An engine with queue 4 in a state. -/
def withQueue (q : Queue) : State := { engine .ready with queues := if q = Queue.reset then [] else [(4, q)] }
/-- The descriptor pending, and 256 others pending. -/
def knownQ : Queue := { Queue.reset with descs := [desc 6 1], cring := 7 }
def fullQ : Queue := { Queue.reset with descs := List.replicate 256 { desc 6 1 with tag := 1 }, cring := 7 }
/-- A SLUICE_OPEN of sluice 3 of die 0, and an engine with that sluice present, and with the pool of the die full. -/
def sluiceOf3 (count : Nat) : Bytes := [0, 0, 3, 0] ++ toLe 4 count ++ toLe 4 9 ++ toLe 4 5 ++ zeros 8
def withSluice (x : Sluice) : State := { engine .ready with sluices := [(sluiceKey 0 3, x)] }
def poolFull : State :=
  { engine .ready with
    sluices := [(sluiceKey 0 4, { Sluice.reset with present := true, count := poolBits })] }
/-- A host sluice. -/
def hostOpen : Sluice := { sluice .opened with host := true }
/-- A KEY_LOAD of epoch 3 for port 0, and an engine with the link protected. -/
def keyOf : Bytes := toLe 3 1 ++ [3] ++ zeros 40
def secured : State := { engine .ready with cxl := { Cxl.reset with link := true, ide := true }, ports := [(0, upPort)] }

theorem witness_HostObjectCommands :
    State.canon (engine .ready) = true ∧ takesCommand [.ready, .resident, .configured] (engine .ready) ∧
    2 ≤ fieldB [2] 0 1 ∧ fieldB [1] 0 1 < 2 ∧ takesCommand listStates (engine .ready) ∧
    quotaStatus (engine .ready) (quota 1 5 3 67600496 0 0) = .ok ∧ quotaStatus (engine .ready) (quota 2 5 8 0 23 9) = .ok ∧
    quotaStatus (engine .ready) (quota 1 5 4 0 0 0) = .ok ∧ quotaStatus (engine .ready) (quota 1 5 2 67600497 0 0) = .range ∧
    fieldB (migOf 32767 1) 0 2 < 32768 ∧ 4095 < fieldB (migOf 32768 4096) 4 4 ∧ 32768 ≤ fieldB (migOf 32768 1) 0 2 ∧
    zeroB (migOf 32768 1) 2 2 = true ∧ (entriesAt (migOf 32768 1) 8 1).all migEntryOk = true ∧
    listing.tier.hostQ.any (fun m => m.list == fieldB (migOf 32768 1) 0 2) = true ∧ (engine .ready).tier.hostQ = [] ∧
    ((entriesAt (migOf 32768 1) 8 1).map migEntryOf).map (fun e => e.count) = [2] ∧ takesCommand listStates listing ∧
    State.canon listing = true := by unfold takesCommand; decide +kernel
theorem witness_HostObjectCommands_queues :
    takesCommand workStates (withQueue knownQ) ∧ State.canon (withQueue knownQ) = true ∧ State.canon (withQueue fullQ) = true ∧
    postInRange (withQueue Queue.reset) postOf = true ∧ postInRange (withQueue knownQ) postOf = true ∧
    postInRange (withQueue fullQ) postOf = true ∧ fieldB postOf 2 1 = 1 ∧
    tagKnown (queueAt (withQueue Queue.reset) 4) (descOf true (sliceB postOf 8 64)).tag = false ∧
    openDescs (queueAt (withQueue Queue.reset) 4) < 256 ∧
    tagKnown (queueAt (withQueue knownQ) 4) (descOf true (sliceB postOf 8 64)).tag = true ∧
    tagKnown (queueAt (withQueue fullQ) 4) (descOf true (sliceB postOf 8 64)).tag = false ∧
    256 ≤ openDescs (queueAt (withQueue fullQ) 4) := by unfold takesCommand; decide +kernel
theorem witness_HostObjectCommands_sluices :
    openInRange (sluiceOf3 0) = true ∧ openInRange (sluiceOf3 65536) = true ∧
    (sluiceAt (withSluice hostOpen) (sluiceKey 0 3)).present = true ∧ (sluiceAt (engine .ready) (sluiceKey 0 3)).present = false ∧
    findBitmap (bitmapsOf poolFull 0) (fieldB (sluiceOf3 2) 4 4) = none ∧
    findBitmap (bitmapsOf (engine .ready) 0) (fieldB (sluiceOf3 2) 4 4) = some 0 ∧
    (sluiceAt (withSluice (sluice .opened)) (sluiceKey 0 3)).host = false ∧
    (sluiceAt (withSluice hostOpen) (sluiceKey 0 3)).host = true ∧ zeroB [0, 0, 3, 0] 1 1 = true ∧
    hostOpen.landed = hostOpen.bits.length ∧ State.canon (withSluice hostOpen) = true ∧ State.canon poolFull = true ∧
    takesCommand workStates (withSluice hostOpen) ∧ (engine .ready).cxl.ide = false ∧ secured.cxl.ide = true ∧
    inRun secured = false ∧ secured.queues = [] ∧ (queuedOn upPort Queue.reset).queues ≠ [] ∧
    (queuedOn upPort Queue.reset).ports.all (fun p => p.2.txq.isEmpty) = true ∧ bit (fieldB keyOf 0 3) 0 = true ∧ takesCommand workStates secured ∧ State.canon secured = true ∧
    takesCommand [.ready, .resident, .configured, .safe] secured ∧ takesCommand allStates secured ∧
    sext 32 (fieldB (toLe 4 1000001) 0 4) = 1000001 ∧ sext 32 (fieldB (toLe 4 (2 ^ 32 - 1000000)) 0 4) = -1000000 := by
  unfold takesCommand; decide +kernel
theorem test_accounts :
    (after (.shadowGuard [1]) (engine .ready)).dev.guard = true ∧ (after (.shadowGuard [2]) (engine .ready)).mbx.dstatus = .range ∧
    (acctAt (after (.setQuota (quota 1 5 3 67600496 0 0)) (engine .ready)) 1 5).limit = 67600496 ∧
    (acctAt (after (.setQuota (quota 2 5 8 0 23 9)) (engine .ready)) 2 5).base = 9 := by decide +kernel
theorem test_lists :
    ((after (.migPost (migOf 32768 1)) (engine .ready)).tier.hostQ.map (fun m => m.entries)) =
      [[{ op := 5, htier := 0, acct := 0, count := 2, unit := 5, loc := 7 }]] ∧
    (after (.migPost (migOf 32768 1)) listing).mbx.dstatus = .duplicate := by decide +kernel
theorem test_tq_post :
    (after (.tqPost postOf) (withQueue Queue.reset)).mbx.out = zeros 16 ++ [1] ∧
    (after (.tqPost postOf) (withQueue knownQ)).mbx.out = zeros 8 ++ [1, 0, 0, 0, 0, 0, 0, 0, 0] ∧
    (after (.tqPost postOf) (withQueue fullQ)).mbx.dstatus = .full := by decide +kernel
theorem test_sluices :
    (sluiceAt (after (.sluiceOpen (sluiceOf3 2)) (engine .ready)) (sluiceKey 0 3)).st = .opened ∧
    (sluiceAt (after (.sluiceOpen (sluiceOf3 0)) (engine .ready)) (sluiceKey 0 3)).st = .complete ∧
    (after (.sluiceOpen (sluiceOf3 2)) poolFull).mbx.dstatus = .full ∧
    (after (.sluiceClose [0, 0, 3, 0]) (withSluice hostOpen)).sluices = [] := by decide +kernel
theorem test_ports_and_time :
    (portAt (after (.keyLoad keyOf) secured) 0).key1.isSome = true ∧ (after (.keyLoad keyOf) (engine .ready)).mbx.dstatus = .notIde ∧
    (portAt (after (.portReset (toLe 3 1)) secured) 0).st = .training ∧
    (after (.timeOffsetSet (toLe 4 (2 ^ 32 - 1000000))) secured).hall.offset = -1000000 ∧
    (after (.timeOffsetSet (toLe 4 1000001)) secured).mbx.dstatus = .range := by decide +kernel

/-! ## The whole engine -/

theorem witness_EveryCommandAnswers : Instr.wf (.addi 15940 .s0 1 1 1) = true ∧ Instr.wf (.pcsLock 24) = false := by decide +kernel
theorem witness_CanonicalFormIsKept :
    State.canon { engine .ready with pending := [.hotReset] } = true ∧
    step { engine .ready with pending := [.hotReset] } = .next (engine .ready) := ⟨by decide +kernel, rfl⟩
/-- A run in which S0 of one cluster, or one of its vector cores, issues. -/
theorem witness_InstructionFrame :
    (∃ t, exec (.addi 15940 .s0 1 1 1) (running cluster) = .next t ∧ t.dev.st = .running) ∧
    scalarOf (.addi 15940 .s0 1 1 1) = some (15940, .s0) ∧
    (scalarCore .s0 (clusterAt (running cluster) 15940)).ready ≤ (running cluster).lc ∧
    (∃ t, exec (.dclr 15940 0) (running cluster) = .next t ∧ t.dev.st = .running) ∧
    vectorOf (.dclr 15940 0) = some (15940, 0) ∧ (vecCore 0 (clusterAt (running cluster) 15940)).ready ≤ (running cluster).lc :=
  ⟨⟨_, rfl, by decide +kernel⟩, rfl, by decide +kernel, ⟨_, rfl, by decide +kernel⟩, rfl, by decide +kernel⟩
theorem witness_WhatLastsUntilPowerIsLost :
    step { engine .ready with pending := [.hotReset] } = .next (engine .ready) ∧ (engine .ready).power.on = true ∧
    isGood (engine .ready) 0 = false := ⟨rfl, rfl, by decide +kernel⟩
/-- The safe state takes commands and lasts. -/
theorem witness_FinalStates :
    State.bgFits { tripped 0 with pending := [.hotReset] } = true ∧
    (∃ t, step { tripped 0 with pending := [.hotReset] } = .next t ∧ t.dev.st = .safe) ∧ (tripped 0).dev.st = .safe ∧
    (tripped 0).power.on = true ∧ (engine .startFailed).dev.st = .startFailed ∧
    (∃ t, step { engine .startFailed with pending := [.hotReset] } = .next t ∧ t.dev.st = .startFailed) :=
  ⟨by decide +kernel, ⟨_, rfl, by decide +kernel⟩, rfl, rfl, rfl, ⟨_, rfl, by decide +kernel⟩⟩

/-! ## Words of the program encodings -/

/-- A word from its fields, each with its lowest bit. -/
def wordOf (fs : List (Nat × Nat)) : Nat := (fs.map (fun f => f.2 * 2 ^ f.1)).foldl (· + ·) 0

/-- One word of each scalar format, its fields placed as R112, R113 and R115 to R121 give them. -/
theorem test_scalar_words :
    scalarInstr 7 .s0 (wordOf [(26, 0x01), (21, 3), (16, 1), (11, 2), (0, 1)]) = some (.alu 7 .s0 3 1 2 1) ∧
    scalarInstr 7 .s1 (wordOf [(26, 0x02), (21, 4), (16, 5), (0, 0xFFFF)]) = some (.addi 7 .s1 4 5 0xFFFF) ∧
    scalarInstr 7 .s0 (wordOf [(26, 0x09), (21, 6), (16, 7), (0, 0xFFFE)]) = some (.bne 7 .s0 6 7 0xFFFE) ∧
    scalarInstr 7 .s0 (wordOf [(26, 0x0F), (0, 0x3FFFFFF)]) = some (.call 7 .s0 0x3FFFFFF) ∧
    scalarInstr 7 .s0 (wordOf [(26, 0x11), (21, 9), (11, 1023)]) = some (.loop 7 .s0 9 1023) ∧
    scalarInstr 7 .s0 (wordOf [(26, 0x18), (22, 11), (11, 2047), (10, 1), (7, 5)]) = some (.mop 7 11 2047 true 5) ∧
    scalarInstr 7 .s0 (wordOf [(26, 0x19), (23, 5), (10, 0x1FFF)]) = some (.vstart 7 5 0x1FFF) ∧
    scalarInstr 7 .s0 (wordOf [(26, 0x1B), (10, 0x1234), (9, 1)]) = some (.weir 7 0x1234 true false) ∧
    scalarInstr 7 .s1 (wordOf [(26, 0x20), (21, 3), (20, 1), (15, 2), (13, 1), (0, 0x1FFF)]) =
      some (.lda 7 3 true 2 false true 0x1FFF) ∧
    scalarInstr 7 .s1 (wordOf [(26, 0x22), (23, 1), (20, 2), (17, 5), (0, 600)]) = some (.aop 7 1 2 5 600) ∧
    scalarInstr 7 .s1 (wordOf [(26, 0x24), (23, 5), (22, 1), (16, 31)]) = some (.tload 7 5 true false 31) ∧
    scalarInstr 7 .s1 (wordOf [(26, 0x26)]) = some (.s1End 7) := by decide +kernel
/-- Reserved opcodes, functions and fields, and an opcode of the other core, spell nothing (R111, R113). -/
theorem test_scalar_reserved :
    scalarInstr 7 .s0 0 = none ∧ scalarInstr 7 .s0 (wordOf [(26, 0x01), (0, 11)]) = none ∧
    scalarInstr 7 .s0 (wordOf [(26, 0x10), (0, 1)]) = none ∧ scalarInstr 7 .s1 (wordOf [(26, 0x1C)]) = none ∧
    scalarInstr 7 .s0 (wordOf [(26, 0x26)]) = none := by decide +kernel
/-- Words of the vector classes, their fields placed as R126 to R129 give them. -/
theorem test_vector_words :
    vectorInstr 7 2 (wordOf [(56, 0x04), (51, 1), (46, 2), (41, 3), (36, 4), (33, 5)]) = some (.fma 7 2 1 2 3 4 5) ∧
    vectorInstr 7 2 (wordOf [(56, 0x0C), (51, 7), (46, 2), (41, 3), (25, 4)]) = some (.fcmp 7 2 7 2 3 0 4) ∧
    vectorInstr 7 2 (wordOf [(56, 0x30), (51, 8), (46, 9), (25, 1)]) = some (.teval 7 2 8 9 0 1) ∧
    vectorInstr 7 2 (wordOf [(56, 0x38), (51, 1), (46, 2), (29, 0x02), (25, 0x01)]) = some (.cvt 7 2 1 2 0 2 1 0) ∧
    vectorInstr 7 2 (wordOf [(56, 0x4A), (46, 2), (0, 15)]) = some (.dfoldt 7 2 2 15) ∧
    vectorInstr 7 2 (wordOf [(56, 0x51), (51, 31), (0, 1)]) = some (.gdraw 7 2 31 0 true) ∧
    vectorInstr 7 2 (wordOf [(56, 0x58), (51, 6), (33, 1), (13, 0x61000), (10, 3), (0, 0x3F0)]) =
      some (.ld 7 2 6 1 { addr := 0x61000, width := 3, step := 0x3F0 }) ∧
    vectorInstr 7 2 (wordOf [(56, 0x5C), (51, 6), (0, 0x3F800000)]) = some (.li 7 2 6 0 0x3F800000) ∧
    vectorInstr 7 2 (wordOf [(56, 0x60), (16, 15), (0, 300)]) = some (.rep 7 2 15 300) ∧
    vectorInstr 7 2 (wordOf [(56, 0x61)]) = some (.vectorEnd 7 2) ∧
    vectorInstr 7 2 0 = none ∧ vectorInstr 7 2 (wordOf [(56, 0x01), (36, 1)]) = none ∧
    vectorInstr 7 2 (wordOf [(56, 0x61), (0, 1)]) = none := by decide +kernel

/-- A loaded word under the minimum of R116 with a bound of 9 needs the words 0 to 9 only, and a product keeps them. -/
theorem test_clamped_index_span :
    let x : LoadSpan := { reg := 3, at_ := 0, top := 2 ^ 32 - 1, same := true }
    aopSpan 4 4 9 x = (9, false) ∧ aopSpan 5 512 0 { x with top := 9, same := false } = (9, false) := by decide

end Sys2Proof.Tests
end

section
/-! PROOF. The scope of the model: the queue (R7, R396), the host link with its registers (R10, R322 to R336, R346,
R363), and what every command answers (log entry 106). -/

namespace Sys2Proof.Machine

/-! ## The queue -/

/-- Settles O1: `step` takes the queue apart. -/
theorem stepRunsTheFrontCommand : Obligations.StepRunsTheFrontCommand :=
  ⟨fun _ _ => rfl, fun s h => by simp [step, h]⟩

/-! ## Training and SPDM (R322, R324, R363) -/

theorem hostMode_eq_none {c : Channel} (h : c.lanes < 4 ∨ c.rate < 32) : hostMode c = none := if_pos h

theorem hostMode_eq_some {c : Channel} (hl : 4 ≤ c.lanes) (hr : 32 ≤ c.rate) :
    hostMode c = some
      { lanes := if c.lanes < 8 then 4 else 8, rate := if c.rate < 64 then 32 else 64,
        flit := if c.rate < 64 ∧ c.flits256 = false then 68 else 256 } :=
  if_neg (by omega)

theorem exec_perstNRelease_on (s : State) (ch : Channel) (h : s.power.on = true) :
    exec (.perstNRelease ch) s = .next (trainHost ch (resetConfig s)) := by
  simp [execPerstNRelease, h]

@[simp] theorem spdmEffect_spdmAnswers (m : Spdm) (x : Cxl) : (spdmEffect m x).spdmAnswers = x.spdmAnswers := by
  cases m with
  | plain | finish | endSession => rfl
  | ideKey i => cases i <;> simp only [spdmEffect, keyStream] <;> split <;> rfl
  | ideGo i => cases i <;> simp only [spdmEffect, setStream] <;> split <;> rfl
  | ideStop i => cases i <;> simp only [spdmEffect, setStream] <;> split <;> rfl

theorem exec_spdmMessage_up (s : State) (m : Spdm) (y : Cxl) (h : mailboxUp s = true) (hy : spdmEffect m s.cxl = y) :
    exec (.spdmMessage m) s = .next { s with cxl := { y with spdmAnswers := s.cxl.spdmAnswers + 1 } } := by
  subst hy
  simp [execSpdmMessage, h]

/-! ## Register writes (R325, R328, R334) -/

theorem execRegWrite_config (s : State) (off : Nat) (x : W64) (h : mailboxUp s = true) :
    execRegWrite (.config off) x s =
      .next (if off = 0x10 then { s with cxl := { s.cxl with bar0 := x >>> 20 <<< 20 } } else s) := by
  simp [execRegWrite, h]

theorem execRegWrite_bar0 (s : State) (off : Nat) (x : W64) (h : mailboxUp s = true) :
    execRegWrite (.bar0 off) x s =
      .next (if off = 0x40180 then writeGear x.toNat s
        else if off = 0x40304 then setRelayDis (bit x.toNat 1) (setHold (bit x.toNat 0) s)
        else if 0x50000 ≤ off ∧ off < 0x50040 then writeMsix (off - 0x50000) x.toNat s
        else s) := by
  simp [execRegWrite, h]

/-- Bit `i` of a word's number is the word's bit `i`. -/
@[simp] theorem bit_toNat {w : Nat} (x : BitVec w) (i : Nat) : bit x.toNat i = x.getLsbD i :=
  Nat.testBit_eq_decide_div_mod_eq.symm

/-! WEIR_CTRL (R164, R167): HOLD changes the weirs' state alone. -/

theorem noteLast_eq (r l i : Nat) (s : State) :
    ∃ w : WeirCtl, noteLast r l i s = { s with weir := w } ∧ w.hold = s.weir.hold := by
  unfold noteLast
  dsimp only
  split <;> exact ⟨_, rfl, rfl⟩

theorem setHold_eq (v : Bool) (s : State) : ∃ w : WeirCtl, setHold v s = { s with weir := w } ∧ w.hold = v := by
  unfold setHold
  dsimp only
  split
  · exact ⟨_, rfl, rfl⟩
  · split
    · split <;> exact ⟨_, rfl, rfl⟩
    · split
      · exact ⟨_, rfl, rfl⟩
      · obtain ⟨w, hnote, hhold⟩ := noteLast_eq rankDecision 0xF 0 (updWeir (fun w => { w with decided := true })
          (updWeir (fun w => { w with hold := v }) s))
        exact ⟨w, hnote, hhold⟩

/-! The MSI-X table (R328; log entries 80, 91). -/

theorem getD_setAt_same {α : Type} (d a : α) (xs : List α) (n : Nat) (h : n < xs.length) :
    (setAt xs n a).getD n d = a := by
  induction xs generalizing n with
  | nil => simp at h
  | cons x xs ih =>
    cases n with
    | zero => rfl
    | succ n => simpa [setAt] using ih n (by simpa using h)

theorem getD_setAt_ne {α : Type} (d a : α) (xs : List α) (n m : Nat) (h : m ≠ n) :
    (setAt xs n a).getD m d = xs.getD m d := by
  induction xs generalizing n m with
  | nil => rfl
  | cons x xs ih =>
    cases n with
    | zero => cases m with
      | zero => exact absurd rfl h
      | succ m => rfl
    | succ n => cases m with
      | zero => rfl
      | succ m => simpa [setAt] using ih n m (by omega)

/-- The entry that a write at `o` of an MSI-X entry leaves (R328; log entries 80, 91). -/
def msixAfter (o : Nat) (x : W64) (e : MsixEntry) : MsixEntry :=
  if o = 0 then { e with addr := x }
  else if o = 4 then { e with addr := (x.extractLsb' 0 32 ++ e.addr.extractLsb' 0 32 : BitVec 64) }
  else if o = 8 then { e with data := x.extractLsb' 0 32, masked := x.getLsbD 32 }
  else if o = 12 then { e with masked := x.getLsbD 0 }
  else e

theorem ofNat_low_high (x y : W64) :
    BitVec.ofNat 64 (y.toNat % 2 ^ 32 + x.toNat % 2 ^ 32 * 2 ^ 32) =
      (x.extractLsb' 0 32 ++ y.extractLsb' 0 32 : BitVec 64) := by
  apply BitVec.eq_of_toNat_eq
  have hy : y.toNat % 2 ^ 32 < 2 ^ 32 := Nat.mod_lt _ (by decide)
  rw [BitVec.toNat_append, ← Nat.shiftLeft_add_eq_or_of_lt (by simpa using hy)]
  simp [Nat.shiftLeft_eq]
  omega

theorem writeMsix_eq (i o : Nat) (ho : o < 16) (x : W64) (s : State) :
    writeMsix (16 * i + o) x.toNat s =
      { s with cxl := { s.cxl with
          msixTable := setAt s.cxl.msixTable i (msixAfter o x (s.cxl.msixTable.getD i MsixEntry.reset)),
          msixPending := setAt s.cxl.msixPending i
            (s.cxl.msixPending.getD i false && (msixAfter o x (s.cxl.msixTable.getD i MsixEntry.reset)).masked) } } := by
  have hdiv : (16 * i + o) / 16 = i := by omega
  have hmod : (16 * i + o) % 16 = o := by omega
  have hdata : BitVec.ofNat 32 x.toNat = x.extractLsb' 0 32 := by
    apply BitVec.eq_of_toNat_eq; simp
  simp only [writeMsix, hdiv, hmod, ofNat_low_high, hdata, bit_toNat, BitVec.ofNat_toNat, BitVec.setWidth_eq]
  rfl

theorem exec_regWrite_hold (s : State) (x : W64) (h : mailboxUp s = true) :
    ∃ t, exec (.regWrite (.bar0 0x40304) x) s = .next t ∧ t.weir.hold = x.getLsbD 0 ∧ t.weir.relayDis = x.getLsbD 1 ∧
      { t with weir := s.weir } = s := by
  obtain ⟨w, hset, hhold⟩ := setHold_eq (x.getLsbD 0) s
  refine ⟨setRelayDis (x.getLsbD 1) { s with weir := w }, ?_, hhold, rfl, rfl⟩
  rw [exec_regWrite, execRegWrite_bar0 _ _ _ h, bit_toNat, bit_toNat, hset]; rfl

/-- A write inside an MSI-X entry changes that entry as `msixAfter` says, and its pending bit (R328). -/
theorem exec_regWrite_msix (s : State) (i o : Nat) (x : W64) (h : mailboxUp s = true) (hi : i < 4) (ho : o < 16)
    (ht : s.cxl.msixTable.length = 4) (hp : s.cxl.msixPending.length = 4) (e' : MsixEntry)
    (he : msixAfter o x (s.cxl.msixTable.getD i MsixEntry.reset) = e') :
    ∃ t, exec (.regWrite (.bar0 (0x50000 + 16 * i + o)) x) s = .next t ∧ t.cxl.msixTable.getD i MsixEntry.reset = e' ∧
      t.cxl.msixPending.getD i false = (s.cxl.msixPending.getD i false && e'.masked) ∧
      (∀ j, j ≠ i → t.cxl.msixTable.getD j MsixEntry.reset = s.cxl.msixTable.getD j MsixEntry.reset ∧
        t.cxl.msixPending.getD j false = s.cxl.msixPending.getD j false) ∧
      { t with cxl := { t.cxl with msixTable := s.cxl.msixTable, msixPending := s.cxl.msixPending } } = s := by
  subst he
  have hoff : 0x50000 + 16 * i + o - 0x50000 = 16 * i + o := by omega
  refine ⟨writeMsix (16 * i + o) x.toNat s, ?_, ?_⟩
  · rw [exec_regWrite, execRegWrite_bar0 _ _ _ h, if_neg (by omega), if_neg (by omega), if_pos (by omega), hoff]
  · rw [writeMsix_eq i o ho]
    exact ⟨getD_setAt_same _ _ _ _ (by omega), getD_setAt_same _ _ _ _ (by omega),
      fun j hj => ⟨getD_setAt_ne _ _ _ _ _ hj, getD_setAt_ne _ _ _ _ _ hj⟩, rfl⟩

/-! ## Reads of the Damust block (R329 to R336) -/

theorem bar0Read_word (off : Nat) (s : State) : bar0Read off 4 s = bar0Dword off s := by
  simp [bar0Read]

theorem bar0Read_quad (off : Nat) (s : State) :
    bar0Read off 8 s = bar0Dword off s + bar0Dword (off + 4) s * 2 ^ 32 := by
  simp [bar0Read]

theorem bar0Dword_damust (o : Nat) (h : o < 0x10000) (s : State) : bar0Dword (0x40000 + o) s = damustDword o s := by
  unfold bar0Dword
  simp (disch := omega) only [if_neg, if_pos, Nat.add_sub_cancel_left]

theorem mem_damustWide {o : Nat} (h : damustWide.contains o = true) : o ≤ 0x420 ∧ o % 4 = 0 := by
  simp [damustWide] at h
  omega

theorem damustDword_low (o : Nat) (s : State) (h : o < 4 ∨ damustWide.contains (o - 4) = false) :
    damustDword o s = damustReg o s % 2 ^ 32 := by
  unfold damustDword
  rw [if_neg]
  rintro ⟨h4, hc⟩
  rcases h with h | h
  · omega
  · exact absurd (h.symm.trans hc) Bool.false_ne_true

theorem damustDword_high (o : Nat) (s : State) (h : damustWide.contains o = true) :
    damustDword (o + 4) s = damustReg o s / 2 ^ 32 % 2 ^ 32 := by
  unfold damustDword
  rw [if_pos ⟨by omega, by simpa using h⟩, Nat.add_sub_cancel]

/-- No 64-bit register begins in the upper half of another. -/
theorem damustWide_sub_four {o : Nat} (h : damustWide.contains o = true) :
    o < 4 ∨ damustWide.contains (o - 4) = false := by
  simp only [damustWide, List.contains_eq_mem, List.mem_cons, List.not_mem_nil, or_false, decide_eq_true_eq,
    decide_eq_false_iff_not] at h ⊢
  omega

/-- A 64-bit register is read whole or by halves (R329). -/
theorem bar0Read_wide (o v : Nat) (s : State) (hw : damustWide.contains o = true) (hr : damustReg o s = v)
    (hv : v < 2 ^ 64) :
    bar0Read (0x40000 + o) 8 s = v ∧ bar0Read (0x40000 + o) 4 s = v % 2 ^ 32 ∧
      bar0Read (0x40000 + o + 4) 4 s = v / 2 ^ 32 := by
  have ho : o ≤ 0x420 := (mem_damustWide hw).1
  have low : bar0Dword (0x40000 + o) s = v % 2 ^ 32 := by
    rw [bar0Dword_damust o (by omega), damustDword_low o s (damustWide_sub_four hw), hr]
  have high : bar0Dword (0x40000 + o + 4) s = v / 2 ^ 32 := by
    rw [Nat.add_assoc, bar0Dword_damust (o + 4) (by omega), damustDword_high o s hw, hr]
    omega
  rw [bar0Read_quad, bar0Read_word, bar0Read_word, low, high]
  omega

theorem bar0Read_narrow (o v : Nat) (s : State) (ho : o < 0x10000) (hw : o < 4 ∨ damustWide.contains (o - 4) = false)
    (hr : damustReg o s = v) : bar0Read (0x40000 + o) 4 s = v % 2 ^ 32 := by
  rw [bar0Read_word, bar0Dword_damust o ho, damustDword_low o s hw, hr]

/-- Past the last register of its own, the block holds the port registers only (R265, R329). -/
theorem damustReg_past (o : Nat) (s : State) (h : 0x420 < o) :
    damustReg o s =
      if 0x1000 ≤ o ∧ o < 0x1180 ∧ o % 16 = 0 then portStatus (portAt s ((o - 0x1000) / 16))
      else if 0x1000 ≤ o ∧ o < 0x1180 ∧ o % 16 = 4 then portFilter (portAt s ((o - 0x1000) / 16))
      else 0 := by
  unfold damustReg
  iterate 21 rw [if_neg (by omega)]

theorem damustReg_port (p : Nat) (hp : p < 24) (s : State) :
    damustReg (0x1000 + 16 * p) s = portStatus (portAt s p) ∧
      damustReg (0x1004 + 16 * p) s = portFilter (portAt s p) := by
  constructor
  · rw [damustReg_past _ s (by omega), if_pos (by omega), show (0x1000 + 16 * p - 0x1000) / 16 = p by omega]
  · rw [damustReg_past _ s (by omega), if_neg (by omega), if_pos (by omega),
      show (0x1004 + 16 * p - 0x1000) / 16 = p by omega]

theorem not_damustWide_of_gt {o : Nat} (h : 0x420 < o) : damustWide.contains o = false := by
  rw [← Bool.not_eq_true]
  intro hc
  have := (mem_damustWide hc).1
  omega

theorem damustReg_reserved (o : Nat) (s : State) (h : (0x420 < o ∧ o < 0x1000) ∨ 0x1180 ≤ o) : damustReg o s = 0 := by
  rw [damustReg_past o s (by omega), if_neg (by omega), if_neg (by omega)]

theorem bar0Read_port (p : Nat) (hp : p < 24) (s : State) :
    bar0Read (0x41000 + 16 * p) 4 s = portStatus (portAt s p) % 2 ^ 32 ∧
      bar0Read (0x41004 + 16 * p) 4 s = portFilter (portAt s p) % 2 ^ 32 := by
  obtain ⟨hstatus, hfilter⟩ := damustReg_port p hp s
  constructor
  · rw [show 0x41000 + 16 * p = 0x40000 + (0x1000 + 16 * p) by omega]
    exact bar0Read_narrow _ _ s (by omega) (.inr (not_damustWide_of_gt (by omega))) hstatus
  · rw [show 0x41004 + 16 * p = 0x40000 + (0x1004 + 16 * p) by omega]
    exact bar0Read_narrow _ _ s (by omega) (.inr (not_damustWide_of_gt (by omega))) hfilter

theorem bar0Read_reserved (off : Nat) (s : State)
    (h : off < 0x1000 ∨ (0x40428 ≤ off ∧ off < 0x41000) ∨ (0x41180 ≤ off ∧ off < 0x50000) ∨ 0x51008 ≤ off) :
    bar0Read off 4 s = 0 := by
  have block (o : Nat) (ho : 0x428 ≤ o ∧ o < 0x1000 ∨ 0x1180 ≤ o ∧ o < 0x10000) : bar0Read (0x40000 + o) 4 s = 0 := by
    rw [bar0Read_narrow o 0 s (by omega) (.inr (not_damustWide_of_gt (by omega))) (damustReg_reserved o s (by omega)),
      Nat.zero_mod]
  rcases h with h | h | h | h
  · rw [bar0Read_word, bar0Dword, if_pos h]
  · simpa (disch := omega) only [Nat.add_sub_cancel'] using block (off - 0x40000) (by omega)
  · simpa (disch := omega) only [Nat.add_sub_cancel'] using block (off - 0x40000) (by omega)
  · rw [bar0Read_word, bar0Dword]
    simp (disch := omega) only [if_neg]

/-! ## Reads of the MSI-X table and the pending bits (R328) -/

theorem length_msixBytes (e : MsixEntry) : (msixBytes e).length = 16 := by simp [msixBytes]

theorem drop_flatMap_msixBytes (t : List MsixEntry) (i : Nat) :
    (t.flatMap msixBytes).drop (16 * i) = (t.drop i).flatMap msixBytes := by
  induction i generalizing t with
  | zero => simp
  | succ i ih =>
    cases t with
    | nil => simp
    | cons e t =>
      rw [List.flatMap_cons, List.drop_succ_cons, ← ih, Nat.mul_succ, Nat.add_comm, ← List.drop_drop,
        List.drop_left' (length_msixBytes e)]

theorem fieldB_msix (t : List MsixEntry) (i o n : Nat) (hi : i < t.length) (ho : o + n ≤ 16) :
    fieldB (t.flatMap msixBytes) (16 * i + o) n = fieldB (msixBytes (t.getD i MsixEntry.reset)) o n := by
  have hd : t.drop i = t.getD i MsixEntry.reset :: t.drop (i + 1) := by
    rw [List.drop_eq_getElem_cons hi]; simp [hi]
  have hlen := length_msixBytes (t.getD i MsixEntry.reset)
  simp only [fieldB, ← List.drop_drop, drop_flatMap_msixBytes]
  rw [hd, List.flatMap_cons, List.drop_append_of_le_length (by omega),
    List.take_append_of_le_length (by rw [List.length_drop]; omega)]

theorem bar0Dword_msix (i o : Nat) (s : State) (hi : i < 4) (ho : o + 4 ≤ 16) (h : s.cxl.msixTable.length = 4) :
    bar0Dword (0x50000 + 16 * i + o) s = fieldB (msixBytes (s.cxl.msixTable.getD i MsixEntry.reset)) o 4 := by
  rw [← fieldB_msix _ _ _ _ (by omega) ho]
  have hsub : 0x50000 + 16 * i + o - 0x50000 = 16 * i + o := by omega
  unfold bar0Dword
  simp (disch := omega) only [if_neg, if_pos, hsub]

/-- Eight bytes of a number are its lower and its upper four. -/
theorem toLe_eight (x : Nat) : toLe 8 x = toLe 4 x ++ toLe 4 (x / 2 ^ 32) := by
  simp [toLe, Nat.div_div_eq_div_mul]

theorem fieldB_msix_addr (e : MsixEntry) :
    fieldB (msixBytes e) 0 4 = e.addr.toNat % 2 ^ 32 ∧ fieldB (msixBytes e) 4 4 = e.addr.toNat / 2 ^ 32 := by
  have low (c : Bytes) := fieldB_append [] (toLe 4 e.addr.toNat) c 0 4 rfl (by simp)
  have high (c : Bytes) := fieldB_append (toLe 4 e.addr.toNat) (toLe 4 (e.addr.toNat / 2 ^ 32)) c 4 4 (by simp) (by simp)
  simp only [List.nil_append] at low
  have := e.addr.isLt
  constructor
  · simp only [msixBytes, toLe_eight, List.append_assoc, low]
    exact leNat_toLe 4 _
  · simp only [msixBytes, toLe_eight, List.append_assoc, high]
    exact (leNat_toLe 4 _).trans (Nat.mod_eq_of_lt (by omega))

theorem fieldB_msix_data (e : MsixEntry) : fieldB (msixBytes e) 8 4 = e.data.toNat := by
  have := fieldB_append (toLe 8 e.addr.toNat) (toLe 4 e.data.toNat) (toLe 4 (b2n e.masked)) 8 4 (by simp) (by simp)
  simp only [msixBytes, List.append_assoc, this, leNat_toLe]
  omega

theorem fieldB_msix_masked (e : MsixEntry) : fieldB (msixBytes e) 12 4 = b2n e.masked := by
  have := fieldB_append (toLe 8 e.addr.toNat ++ toLe 4 e.data.toNat) (toLe 4 (b2n e.masked)) [] 12 4 (by simp) (by simp)
  simp only [List.append_nil] at this
  simp only [msixBytes, this, leNat_toLe]
  cases e.masked <;> rfl

theorem bar0Read_msix (i : Nat) (s : State) (hi : i < 4) (h : s.cxl.msixTable.length = 4) :
    bar0Read (0x50000 + 16 * i) 8 s = (s.cxl.msixTable.getD i MsixEntry.reset).addr.toNat ∧
      bar0Read (0x50008 + 16 * i) 4 s = (s.cxl.msixTable.getD i MsixEntry.reset).data.toNat ∧
      bar0Read (0x5000C + 16 * i) 4 s = b2n (s.cxl.msixTable.getD i MsixEntry.reset).masked := by
  have dword (o : Nat) (ho : o + 4 ≤ 16) := bar0Dword_msix i o s hi ho h
  have h0 := dword 0 (by decide)
  have h4 := dword 4 (by decide)
  have h8 := dword 8 (by decide)
  have h12 := dword 12 (by decide)
  obtain ⟨hlow, hhigh⟩ := fieldB_msix_addr (s.cxl.msixTable.getD i MsixEntry.reset)
  rw [fieldB_msix_data, Nat.add_right_comm] at h8
  rw [fieldB_msix_masked, Nat.add_right_comm] at h12
  rw [hlow, Nat.add_zero] at h0
  rw [hhigh] at h4
  refine ⟨?_, ?_, ?_⟩
  · rw [bar0Read_quad, h0, h4]; omega
  · rw [bar0Read_word]; exact h8
  · rw [bar0Read_word]; exact h12

theorem pendingBits_bit (x : Cxl) : bit (pendingBits x) 0 = x.msixPending.getD 0 false ∧
    bit (pendingBits x) 3 = x.msixPending.getD 3 false := by
  simp only [pendingBits, List.range, List.range.loop, List.foldr]
  generalize x.msixPending.getD 0 false = a
  generalize x.msixPending.getD 1 false = b
  generalize x.msixPending.getD 2 false = c
  generalize x.msixPending.getD 3 false = d
  revert a b c d
  decide

/-! ## Host link and registers -/

/-- Settles O43: each event of the link, each register write and each read by the lemma about it. -/
theorem hostLinkAndRegisters : Obligations.HostLinkAndRegisters := by
  unfold Obligations.HostLinkAndRegisters
  refine ⟨?_, ?_, ?_⟩
  · intro s ch hdmH good ways x v
    refine ⟨fun hon => ⟨fun hbad => ?_, fun hl hr => ?_⟩, fun hup => ⟨?_, ?_, ?_, ?_, ?_⟩⟩
    · rw [exec_perstNRelease_on s ch hon, trainHost, hostMode_eq_none hbad]; rfl
    · rw [exec_perstNRelease_on s ch hon, trainHost, hostMode_eq_some hl hr]; rfl
    · simp [execHotReset, hup, resetConfig]
    · simp [execFunctionLevelReset, hup, resetConfig]
    · simp [execHostLinkLoss, hup, resetConfig]
    · simp [execHdmCommit, hup]
    · have answers (m : Spdm) (y : Cxl) := exec_spdmMessage_up s m y hup
      refine ⟨answers _ _ rfl, answers _ _ rfl, answers _ _ rfl, fun hs => ⟨answers _ _ ?_, answers _ _ ?_, answers _ _ ?_,
        answers _ _ ?_, fun hk => answers _ _ ?_, fun hk => answers _ _ ?_, fun hk => answers _ _ ?_,
        fun hk => answers _ _ ?_⟩, fun hs => ⟨answers _ _ ?_, answers _ _ ?_, answers _ _ ?_⟩⟩
      all_goals simp [spdmEffect, streamKeyed, setStream, keyStream, *]
  · intro s v off x hup
    refine ⟨?_, ?_, ?_, ?_, exec_regWrite_hold s x hup, ?_, ?_, ?_, ?_⟩
    · cases v <;> simp [execGearReqClear, hup]
    · cases v <;> simp [execGearDropClear, hup]
    · simp [execFrameErrRead, hup, timeStatus]
    · simp [execRegWrite_bar0 _ _ _ hup, writeGear]
    · simp [execRegWrite_config _ _ _ hup]
    · intro hne
      simp [execRegWrite_config _ _ _ hup, hne]
    · intro h1 h2 h3
      rw [exec_regWrite, execRegWrite_bar0 _ _ _ hup, if_neg h1, if_neg h2, if_neg (by omega)]
    · intro i hi ht hp
      exact ⟨exec_regWrite_msix s i 0 x hup hi (by decide) ht hp _ rfl,
        exec_regWrite_msix s i 4 x hup hi (by decide) ht hp _ rfl,
        exec_regWrite_msix s i 8 x hup hi (by decide) ht hp _ rfl,
        exec_regWrite_msix s i 12 x hup hi (by decide) ht hp _ rfl⟩
  · intro s
    refine ⟨?_, ?_, ?_, ?_, ?_, ?_, fun off hoff => bar0Read_reserved off s hoff, ?_⟩
    · intro y hy hv
      have hwide : damustWide.contains y.1 = true ∧ damustReg y.1 s = y.2 := by
        clear hv
        revert y
        simp [damustWide, damustReg]
      exact bar0Read_wide y.1 y.2 s hwide.1 hwide.2 hv
    · intro y hy
      have hnarrow : y.1 < 0x10000 ∧ damustWide.contains (y.1 - 4) = false ∧ damustReg y.1 s = y.2 := by
        revert y
        simp [damustWide, damustReg]
      obtain ⟨hblock, hnot, hreg⟩ := hnarrow
      exact bar0Read_narrow y.1 y.2 s hblock (.inr hnot) hreg
    · intro p hp
      exact bar0Read_port p hp s
    · intro i hi ht
      exact bar0Read_msix i s hi ht
    · exact (pendingBits_bit s.cxl).1
    · exact (pendingBits_bit s.cxl).2
    · refine ⟨rfl, rfl, rfl, rfl, rfl, rfl, rfl, rfl, rfl, rfl, rfl, rfl, ?_, rfl⟩
      simp [configSpace]

/-! ## The queue is left to the step (R7; log entry 2)

No operation on the state touches the queue: one `@[simp]` lemma an operation, in the model's order. They are proved by
`simp` and not as `rfl`, so that `simp` can give one as the hypothesis of `foldl_pending`. -/

@[simp] theorem pending_ite {p : Prop} [Decidable p] (s t : State) :
    (if p then s else t).pending = if p then s.pending else t.pending := apply_ite State.pending p s t

@[simp] theorem pending_fst_ite {β : Type} {p : Prop} [Decidable p] (s t : State × β) :
    (if p then s else t).1.pending = if p then s.1.pending else t.1.pending :=
  apply_ite (fun x : State × β => x.1.pending) p s t

@[simp] theorem pending_snd_ite {β : Type} {p : Prop} [Decidable p] (s t : β × State) :
    (if p then s else t).2.pending = if p then s.2.pending else t.2.pending :=
  apply_ite (fun x : β × State => x.2.pending) p s t

/-- What every turn of a fold keeps, the fold keeps. -/
theorem foldl_keeps {σ α β : Type} (g : σ → β) (f : σ → α → σ) (h : ∀ s a, g (f s a) = g s) (l : List α)
    (s : σ) : g (l.foldl f s) = g s := by
  induction l generalizing s with
  | nil => rfl
  | cons a l ih => rw [List.foldl_cons, ih, h]

@[simp] theorem foldl_pending {α : Type} (f : State → α → State) (h : ∀ s a, (f s a).pending = s.pending)
    (l : List α) (s : State) : (l.foldl f s).pending = s.pending :=
  foldl_keeps State.pending f h l s

@[simp] theorem foldl_pending_fst {α β : Type} (f : State × β → α → State × β)
    (h : ∀ s a, (f s a).1.pending = s.1.pending) (l : List α) (s : State × β) :
    (l.foldl f s).1.pending = s.1.pending :=
  foldl_keeps (fun r : State × β => r.1.pending) f h l s

/-! The named operations on the state -/

@[simp] theorem trainHost_pending (c : Channel) (s : State) :
    (trainHost c s).pending = s.pending := by simp [trainHost]
@[simp] theorem measureField_pending (s : State) (f : Nat) :
    (measureField s f).pending = s.pending := by simp [measureField]
@[simp] theorem suspect_pending (c : Nat) (s : State) : (suspect c s).pending = s.pending := by simp [suspect]
@[simp] theorem noteFault_pending (f : FaultRec) (s : State) :
    (noteFault f s).pending = s.pending := by simp [noteFault]

/-! The mesh: routers and gates (R134 to R148) -/

@[simp] theorem sendFlit_pending (c now : Nat) (d : Dir) (f : Flit) (src : Nat) (s : State) :
    (sendFlit c now d f src s).pending = s.pending := by
  unfold sendFlit
  repeat' split
  all_goals simp

@[simp] theorem routerStep_pending (c now : Nat) (s : State) :
    (routerStep c now s).1.pending = s.pending := by simp [routerStep]

@[simp] theorem takeSluice_pending (d i : Nat) (s : State) : (takeSluice d i s).2.pending = s.pending := by
  unfold takeSluice
  dsimp only
  repeat' split
  all_goals simp

@[simp] theorem setStage_pending (k : Nat) (l : StageList) (s : State) :
    (setStage k l s).pending = s.pending := by simp [setStage]
@[simp] theorem putExtracted_pending (k : Nat) (bs : Bytes) (s : State) :
    (putExtracted k bs s).pending = s.pending := by simp [putExtracted]

@[simp] theorem takeStaged_pending (stack l : Nat) (s : State) : (takeStaged stack l s).2.pending = s.pending := by
  unfold takeStaged
  dsimp only
  split <;> simp

@[simp] theorem gateInjectStep_pending (g : Gate) (e now : Nat) (s : State) :
    (gateInjectStep g e now s).pending = s.pending := by
  unfold gateInjectStep
  dsimp only
  split <;> simp

@[simp] theorem gateExtractStep_pending (g : Gate) (e now : Nat) (s : State) :
    (gateExtractStep g e now s).1.pending = s.pending := by
  unfold gateExtractStep
  dsimp only
  split <;> simp

@[simp] theorem setGate_pending (g : Gate) (s : State) : (setGate g s).pending = s.pending := by simp [setGate]
@[simp] theorem gateStep_pending (now : Nat) (sf : State × List FaultRec) (g : Gate) :
    (gateStep now sf g).1.pending = sf.1.pending := by simp [gateStep]

/-! Slots and units (R208 to R212) -/

@[simp] theorem writeStack_pending (key : Nat) (data : Bytes) (s : State) :
    (writeStack key data s).pending = s.pending := by simp [writeStack]
@[simp] theorem noteStackEcc_pending (granule : Nat) (s : State) :
    (noteStackEcc granule s).pending = s.pending := by simp [noteStackEcc]
@[simp] theorem readStack_pending (key n : Nat) (s : State) :
    (readStack key n s).2.2.pending = s.pending := by simp [readStack]
@[simp] theorem writeUnit_pending (u : Nat) (t : Bytes) (s : State) :
    (writeUnit u t s).pending = s.pending := by simp [writeUnit]
@[simp] theorem readUnit_pending (u : Nat) (s : State) : (readUnit u s).2.2.pending = s.pending := by simp [readUnit]

/-! The entry to the safe state (R397) -/

@[simp] theorem enterSafe_pending (f : FaultRec) (s : State) :
    (enterSafe f s).pending = s.pending := by simp [enterSafe]

/-! One lc of the lattice, faults and resumes (R7, R154, R396) -/

@[simp] theorem onCluster_pending (f : Nat → Work → Work) (sf : State × List FaultRec) (c : Nat) :
    (onCluster f sf c).1.pending = sf.1.pending := by simp [onCluster]
@[simp] theorem routerTurn_pending (now : Nat) (sf : State × List FaultRec) (c : Nat) :
    (routerTurn now sf c).1.pending = sf.1.pending := by simp [routerTurn]
@[simp] theorem finishLc_pending (s : State) : (finishLc s).1.pending = s.pending := by simp [finishLc]
@[simp] theorem enterWith_pending (f : FaultRec) (fs : List FaultRec) (s : State) :
    (enterWith f fs s).pending = s.pending := by simp [enterWith]

@[simp] theorem endLc_pending (extra : List FaultRec) (s : State) : (endLc extra s).pending = s.pending := by
  unfold endLc
  dsimp only
  split <;> simp

@[simp] theorem fatal_pending (f : FaultRec) (s : State) : (fatal f s).pending = s.pending := by
  unfold fatal
  split <;> simp

@[simp] theorem doResume_pending (p : Resume) (s : State) : (doResume p s).pending = s.pending := by
  unfold doResume
  dsimp only
  repeat' split
  all_goals simp

@[simp] theorem resumeLc_pending (s : State) : (resumeLc s).pending = s.pending := by
  unfold resumeLc
  split <;> simp

/-! Extraction writes (R224) -/

@[simp] theorem stageWritten_pending (k : Nat) (e : StageEnt) (s : State) :
    (stageWritten k e s).pending = s.pending := by simp [stageWritten]

@[simp] theorem writeExtracted_pending (step stack k : Nat) (x : StageList) (e : StageEnt) (i : Nat) (s : State) :
    (writeExtracted step stack k x e i s).pending = s.pending := by
  unfold writeExtracted
  dsimp only
  split <;> simp

@[simp] theorem writeNext_pending (s : State) (k : Nat) : (writeNext s k).pending = s.pending := by
  unfold writeNext
  dsimp only
  split <;> simp

@[simp] theorem applyWrites_pending (s : State) : (applyWrites s).pending = s.pending := by simp [applyWrites]

@[simp] theorem inOrder_pending (f : State → State) (hf : ∀ s, (f s).pending = s.pending) (s : State) :
    (inOrder f s).pending = s.pending := by
  simp [inOrder, hf]

/-! Completion of descriptors (R261, R262) -/

@[simp] theorem writeEntry_pending (k : Nat) (e : Bytes) (s : State) :
    (writeEntry k e s).pending = s.pending := by simp [writeEntry]
@[simp] theorem auditQueue_pending (k : Nat) (s : State) :
    (auditQueue k s).pending = s.pending := by simp [auditQueue]
@[simp] theorem completeDesc_pending (k no status done : Nat) (d : Desc) (s : State) :
    (completeDesc k no status done d s).pending = s.pending := by simp [completeDesc]
@[simp] theorem completeRun_pending (k : Nat) (r : Running) (status : Nat) (s : State) :
    (completeRun k r status s).pending = s.pending := by simp [completeRun]
@[simp] theorem completePending_pending (k status : Nat) (d : Desc) (s : State) :
    (completePending k status d s).pending = s.pending := by simp [completePending]
@[simp] theorem completeAll_pending (k status : Nat) (pick : Desc → Bool) (s : State) :
    (completeAll k status pick s).pending = s.pending := by simp [completeAll]
@[simp] theorem failPort_pending (p status : Nat) (s : State) :
    (failPort p status s).pending = s.pending := by simp [failPort]
@[simp] theorem endDescs_pending (s : State) : (endDescs s).pending = s.pending := by simp [endDescs]
@[simp] theorem logPort_pending (code p : Nat) (s : State) :
    (logPort code p s).pending = s.pending := by simp [logPort]

@[simp] theorem cutFrom_pending (p : Nat) (s : State) : (cutFrom p s).pending = s.pending := by
  simp [cutFrom, foldl_pending _ fun s k => updSluice_pending s k _]

@[simp] theorem goDown_pending (p : Nat) (s : State) : (goDown p s).pending = s.pending := by simp [goDown]

/-! Frames sent and received (R236 to R249) -/

@[simp] theorem pump_pending (p : Nat) (s : State) : (pump p s).pending = s.pending := by simp [pump]
@[simp] theorem postFrame_pending (p : Nat) (f : TxFrame) (s : State) :
    (postFrame p f s).pending = s.pending := by simp [postFrame]
@[simp] theorem postBulk_pending (p vl : Nat) (frame : Bytes) (owner : Nat) (s : State) :
    (postBulk p vl frame owner s).pending = s.pending := by simp [postBulk]
@[simp] theorem postControl_pending (p ctype : Nat) (payload : Bytes) (owner : Nat) (s : State) :
    (postControl p ctype payload owner s).pending = s.pending := by simp [postControl]
@[simp] theorem countPort_pending (p : Nat) (f : PortCnt → PortCnt) (s : State) :
    (countPort p f s).pending = s.pending := by simp [countPort]

@[simp] theorem taken_pending (s : State) (p vl : Nat) (f : Bytes) : (taken s p vl f).pending = s.pending := by
  simp [taken]

@[simp] theorem freeLane_pending (p v : Nat) (s : State) : (freeLane p v s).pending = s.pending := by simp [freeLane]

theorem passBulk_pending (p vl ftype : Nat) (f : Bytes) (h : Bytes → State → State)
    (hh : ∀ b s, (h b s).pending = s.pending) (s : State) : (passBulk p vl ftype f h s).pending = s.pending := by
  unfold passBulk
  dsimp only
  repeat' split
  all_goals simp [hh]

theorem receiveBulk_pending (p vl ftype : Nat) (f : Bytes) (h : Bytes → State → State)
    (hh : ∀ b s, (h b s).pending = s.pending) (s : State) : (receiveBulk p vl ftype f h s).pending = s.pending := by
  simp [receiveBulk, passBulk_pending p vl ftype f h hh]

theorem receiveControl_pending (p ctype : Nat) (f : Bytes) (h : State → State)
    (hh : ∀ s, (h s).pending = s.pending) (s : State) : (receiveControl p ctype f h s).pending = s.pending := by
  unfold receiveControl
  dsimp only
  split
  · simp
  · split <;> simp [hh]

/-! Ring dies (R252 to R279) -/

@[simp] theorem bump_pending (d : Nat) (f : RingCnt → RingCnt) (s : State) :
    (bump d f s).pending = s.pending := by simp [bump]
@[simp] theorem postTile_pending (p sluice i : Nat) (tile : Bytes) (owner : Nat) (s : State) :
    (postTile p sluice i tile owner s).pending = s.pending := by simp [postTile]
@[simp] theorem bumpSent_pending (d p : Nat) (f : RingCnt → RingCnt) (s : State) :
    (bumpSent d p f s).pending = s.pending := by simp [bumpSent]
@[simp] theorem postShardReq_pending (p sluice version first n : Nat) (tid : W32) (rerq : Bool) (s : State) :
    (postShardReq p sluice version first n tid rerq s).pending = s.pending := by simp [postShardReq]
@[simp] theorem serveTile_pending (d idx i p : Nat) (s : State) :
    (serveTile d idx i p s).pending = s.pending := by simp [serveTile]
@[simp] theorem serveWaiting_pending (d idx i : Nat) (s : State) :
    (serveWaiting d idx i s).pending = s.pending := by simp [serveWaiting]
@[simp] theorem startServing_pending (d : Nat) (q : ShardReq) (s : State) :
    (startServing d q s).pending = s.pending := by simp [startServing]
@[simp] theorem staleReq_pending (d n : Nat) (s : State) : (staleReq d n s).pending = s.pending := by simp [staleReq]

@[simp] theorem examineReq_pending (d : Nat) (s : State) (q : ShardReq) : (examineReq d s q).pending = s.pending := by
  unfold examineReq
  repeat' split
  all_goals simp

@[simp] theorem reexamine_pending (d idx : Nat) (s : State) :
    (reexamine d idx s).pending = s.pending := by simp [reexamine]

@[simp] theorem passOne_pending (i : Nat) (tile : Bytes) (s : State) (x : Nat × Desc) :
    (passOne i tile s x).pending = s.pending := by
  unfold passOne
  split <;> simp

@[simp] theorem passMarks_pending (pick : Nat → Running → Bool) (i : Nat) (s : State) :
    (passMarks pick i s).pending = s.pending := by simp [passMarks]
@[simp] theorem passDone_pending (d idx i : Nat) (s : State) :
    (passDone d idx i s).pending = s.pending := by simp [passDone]

@[simp] theorem teeCopy_pending (d idx i : Nat) (tile : Bytes) (s : State) :
    (teeCopy d idx i tile s).pending = s.pending := by
  unfold teeCopy
  dsimp only
  repeat' split
  all_goals simp

@[simp] theorem queueCheck_pending (d idx : Nat) (s : State) :
    (queueCheck d idx s).pending = s.pending := by simp [queueCheck]

@[simp] theorem placeTile_pending (d idx i size : Nat) (tile : Bytes) (s : State) :
    (placeTile d idx i size tile s).pending = s.pending := by
  unfold placeTile
  dsimp only
  repeat' split
  all_goals simp

@[simp] theorem acceptTile_pending (d idx i n p size : Nat) (tile : Bytes) (s : State) :
    (acceptTile d idx i n p size tile s).pending = s.pending := by simp [acceptTile]

@[simp] theorem refuseTile_pending (d idx i : Nat) (s : State) : (refuseTile d idx i s).pending = s.pending := by
  unfold refuseTile
  dsimp only
  repeat' split
  all_goals simp

@[simp] theorem stall_pending (d p vl : Nat) (f : Bytes) (s : State) :
    (stall d p vl f s).pending = s.pending := by simp [stall]
@[simp] theorem park_pending (d p vl idx size : Nat) (marker : Bool) (f : Bytes) (s : State) :
    (park d p vl idx size marker f s).pending = s.pending := by simp [park]
@[simp] theorem noteHead_pending (p vl : Nat) (f : Bytes) (fate : HeadFate) (s : State) :
    (noteHead p vl f fate s).pending = s.pending := by simp [noteHead]
@[simp] theorem endTile_pending (d p : Nat) (f : Bytes) (cut : List Nat) (s : State) :
    (endTile d p f cut s).pending = s.pending := by simp [endTile]

@[simp] theorem endDetached_pending (d unit : Nat) (hostDriven : Bool) (f : Bytes) (cut : List Nat) (s : State) :
    (endDetached d unit hostDriven f cut s).pending = s.pending := by
  unfold endDetached
  dsimp only
  repeat' split
  all_goals simp

@[simp] theorem judgeTile_pending (kept d p vl : Nat) (f : Bytes) (s : State) :
    (judgeTile kept d p vl f s).pending = s.pending := by
  unfold judgeTile
  dsimp only
  split <;> simp

@[simp] theorem judgeMarker_pending (d p : Nat) (f : Bytes) (s : State) :
    (judgeMarker d p f s).pending = s.pending := by
  unfold judgeMarker
  split <;> simp

@[simp] theorem fillFrame_pending (p vl : Nat) (h f : Bytes) (s : State) :
    (fillFrame p vl h f s).pending = s.pending := by simp [fillFrame]

@[simp] theorem tileArrives_pending (d p vl : Nat) (f : Bytes) (s : State) :
    (tileArrives d p vl f s).pending = s.pending := by
  unfold tileArrives
  dsimp only
  repeat' split
  all_goals simp

@[simp] theorem judgeOne_pending (d : Nat) (s : State) (e : Parked) :
    (judgeOne d s e).pending = s.pending := by simp [judgeOne]
@[simp] theorem judgeParked_pending (d idx : Nat) (s : State) :
    (judgeParked d idx s).pending = s.pending := by simp [judgeParked]
@[simp] theorem detachSluices_pending (pick : Nat → Bool) (s : State) :
    (detachSluices pick s).pending = s.pending := by simp [detachSluices]

@[simp] theorem openSluice_pending (k : Nat) (s : State) : (openSluice k s).pending = s.pending := by
  unfold openSluice
  dsimp only
  split <;> simp

@[simp] theorem closeSluice_pending (k : Nat) (s : State) :
    (closeSluice k s).pending = s.pending := by simp [closeSluice]

@[simp] theorem shardHash_pending (first n : Nat) (s : State) : (shardHash first n s).2.2.pending = s.pending := by
  simp only [shardHash]
  rw [foldl_keeps (fun r : Bytes × Bool × State => r.2.2.pending)]
  simp

@[simp] theorem runCheck_pending (d idx : Nat) (s : State) :
    (runCheck d idx s).pending = s.pending := by simp [runCheck]

/-! Staging lists (R222) -/

@[simp] theorem readStaged_pending (stack k : Nat) (x : StageList) (e : StageEnt) (i : Nat) (s : State) :
    (readStaged stack k x e i s).pending = s.pending := by
  unfold readStaged
  dsimp only
  split <;> simp

/-! Transfer queues (R258 to R264) -/

@[simp] theorem updRun_pending (k no : Nat) (f : Running → Running) (s : State) :
    (updRun k no f s).pending = s.pending := by simp [updRun]
@[simp] theorem endForeign_pending (k : Nat) (r : Running) (u : Nat) (s : State) :
    (endForeign k r u s).pending = s.pending := by simp [endForeign]
@[simp] theorem nextTile_pending (k i : Nat) (d : Desc) (s : State) :
    (nextTile k i d s).2.pending = s.pending := by simp [nextTile]
@[simp] theorem sendOne_pending (k : Nat) (r : Running) (i : Nat) (t : Bytes) (s : State) :
    (sendOne k r i t s).pending = s.pending := by simp [sendOne]
@[simp] theorem sendSeal_pending (k : Nat) (r : Running) (bytes : Bytes) (s : State) :
    (sendSeal k r bytes s).pending = s.pending := by simp [sendSeal]

@[simp] theorem copyTiles_pending (k no n : Nat) (s : State) : (copyTiles k no n s).pending = s.pending := by
  induction n generalizing s with
  | zero => rfl
  | succ n ih =>
    unfold copyTiles
    cases (queueAt s k).running.find? (fun r => r.no == no) with
    | none => rfl
    | some r =>
      dsimp only
      split
      · rfl
      · have hnext := nextTile_pending k r.sent r.desc s
        split <;> simp_all

@[simp] theorem laneTiles_pending (k : Nat) (d : Desc) (n i : Nat) (s : State) :
    (laneTiles k d n i s).2.2.pending = s.pending := by
  induction n generalizing i s with
  | zero => rfl
  | succ n ih =>
    have hnext := nextTile_pending k i d s
    unfold laneTiles
    split <;> simp_all
    split <;> simp_all

@[simp] theorem carryTiles_pending (k no fuel frame : Nat) (s : State) :
    (carryTiles k no fuel frame s).pending = s.pending := by
  induction fuel generalizing frame s with
  | zero => rfl
  | succ fuel ih =>
    unfold carryTiles
    cases (queueAt s k).running.find? (fun r => r.no == no) with
    | none => rfl
    | some r =>
      dsimp only
      split
      · rfl
      · generalize hlanes : laneTiles _ _ _ _ _ = l
        have hl : l.2.2.pending = s.pending := by rw [← hlanes, laneTiles_pending]
        split <;> simp_all

@[simp] theorem passStored_pending (k no i : Nat) (s : State) : (passStored k no i s).pending = s.pending := by
  unfold passStored
  dsimp only
  split <;> simp

@[simp] theorem sendReads_pending (k : Nat) (r : Running) (s : State) :
    (sendReads k r s).pending = s.pending := by simp [sendReads]
@[simp] theorem sendCommit_pending (k : Nat) (r : Running) (s : State) :
    (sendCommit k r s).pending = s.pending := by simp [sendCommit]

@[simp] theorem progress_pending (k no : Nat) (s : State) : (progress k no s).pending = s.pending := by
  unfold progress
  repeat' split
  all_goals simp

@[simp] theorem firstWork_pending (k : Nat) (r : Running) (s : State) :
    (firstWork k r s).pending = s.pending := by simp [firstWork]

@[simp] theorem startDesc_pending (k : Nat) (d : Desc) (s : State) : (startDesc k d s).pending = s.pending := by
  unfold startDesc
  dsimp only
  split <;> simp

@[simp] theorem refetch_pending (k i : Nat) (r : Running) (s : State) :
    (refetch k i r s).pending = s.pending := by simp [refetch]
@[simp] theorem feedDescs_pending (s : State) : (feedDescs s).pending = s.pending := by simp [feedDescs]

@[simp] theorem homeDataWork_pending (p : Nat) (f : Bytes) (s : State) : (homeDataWork p f s).pending = s.pending := by
  unfold homeDataWork
  repeat' split
  all_goals simp

/-! The link layer of the ports (R235 to R243) -/

@[simp] theorem sendInit_pending (p : Nat) (s : State) : (sendInit p s).pending = s.pending := by simp [sendInit]
@[simp] theorem linkUp_pending (p : Nat) (s : State) : (linkUp p s).pending = s.pending := by simp [linkUp]
@[simp] theorem relink_pending (p : Nat) (s : State) : (relink p s).pending = s.pending := by simp [relink]
@[simp] theorem takeInit_pending (p : Nat) (f : Bytes) (s : State) :
    (takeInit p f s).pending = s.pending := by simp [takeInit]
@[simp] theorem startRetrain_pending (p : Nat) (s : State) :
    (startRetrain p s).pending = s.pending := by simp [startRetrain]
@[simp] theorem countReplay_pending (p : Nat) (s : State) :
    (countReplay p s).pending = s.pending := by simp [countReplay]
@[simp] theorem replay_pending (p ch seq : Nat) (s : State) :
    (replay p ch seq s).pending = s.pending := by simp [replay]
@[simp] theorem retrained_pending (p : Nat) (s : State) : (retrained p s).pending = s.pending := by simp [retrained]

@[simp] theorem checkAudit_pending (p v : Nat) (s : State) : (checkAudit p v s).pending = s.pending := by
  unfold checkAudit
  dsimp only
  split <;> simp

@[simp] theorem takeHeader_pending (p h : Nat) (s : State) :
    (takeHeader p h s).pending = s.pending := by simp [takeHeader]
@[simp] theorem takeBody_pending (p v sof : Nat) (body : Bytes) (s : State) :
    (takeBody p v sof body s).pending = s.pending := by simp [takeBody]
@[simp] theorem acceptBulk_pending (p v h : Nat) (b : Bytes) (s : State) :
    (acceptBulk p v h b s).pending = s.pending := by simp [acceptBulk]
@[simp] theorem acceptControl_pending (p : Nat) (b : Bytes) (s : State) :
    (acceptControl p b s).pending = s.pending := by simp [acceptControl]
@[simp] theorem askReplay_pending (p ch e : Nat) (asked : Bool) (mark : Port → Port) (s : State) :
    (askReplay p ch e asked mark s).pending = s.pending := by simp [askReplay]
@[simp] theorem takeFlit_pending (p : Nat) (b : Bytes) (s : State) :
    (takeFlit p b s).pending = s.pending := by simp [takeFlit]

/-! The mailbox (R337 to R340) -/

@[simp] theorem reply_pending (d : DStatus) (out : Bytes) (s : State) :
    (reply d out s).pending = s.pending := by simp [reply]
@[simp] theorem started_pending (bg : BgCmd) (s : State) : (started bg s).pending = s.pending := by simp [started]
@[simp] theorem finishRead_pending (r : BgResult) (s : State) :
    (finishRead r s).pending = s.pending := by simp [finishRead]
@[simp] theorem takeOpcode_pending (op : Nat) (s : State) :
    (takeOpcode op s).pending = s.pending := by simp [takeOpcode]
@[simp] theorem standard_pending (op rc : Nat) (out : Bytes) (s : State) :
    (standard op rc out s).pending = s.pending := by simp [standard]

/-! Frames taken in by the ring dies (R245, R254) -/

@[simp] theorem countDrop_pending (s : State) : (countDrop s).pending = s.pending := by simp [countDrop]

@[simp] theorem serveHome_pending (p id : Nat) (s : State) (x : Nat × Nat) :
    (serveHome p id s x).pending = s.pending := by
  unfold serveHome
  dsimp only
  split <;> simp

/-! The tier engine (R214 to R220) -/

@[simp] theorem updAcct_pending (tier a : Nat) (f : Account → Account) (s : State) :
    (updAcct tier a f s).pending = s.pending := by simp [updAcct]
@[simp] theorem useAcct_pending (tier a : Nat) (s : State) :
    (useAcct tier a s).pending = s.pending := by simp [useAcct]
@[simp] theorem freeAcct_pending (tier a : Nat) (s : State) :
    (freeAcct tier a s).pending = s.pending := by simp [freeAcct]
@[simp] theorem audit_pending (s : State) : (audit s).pending = s.pending := by simp [audit]
@[simp] theorem occupy_pending (u stack slot acct : Nat) (s : State) :
    (occupy u stack slot acct s).pending = s.pending := by simp [occupy]
@[simp] theorem vacate_pending (u : Nat) (s : State) : (vacate u s).pending = s.pending := by simp [vacate]
@[simp] theorem setMigQueue_pending (host : Bool) (q : List MigInst) (s : State) :
    (setMigQueue host q s).pending = s.pending := by simp [setMigQueue]
@[simp] theorem setRec_pending (l : Nat) (r : ListRec) (s : State) :
    (setRec l r s).pending = s.pending := by simp [setRec]

@[simp] theorem settleQueue_pending (host : Bool) (ms : List MigInst) (s : State) :
    (settleQueue host ms s).pending = s.pending := by
  induction ms generalizing s with
  | nil => simp [settleQueue]
  | cons m ms ih => simp [settleQueue, ih]

@[simp] theorem startMig_pending (host : Bool) (l : Nat) (es : List MigEntry) (s : State) :
    (startMig host l es s).pending = s.pending := by simp [startMig]
@[simp] theorem countTierDesc_pending (p : Nat) (s : State) :
    (countTierDesc p s).pending = s.pending := by simp [countTierDesc]
@[simp] theorem askHome_pending (p : Nat) (o : UnitOp) (s : State) :
    (askHome p o s).pending = s.pending := by simp [askHome]
@[simp] theorem sendHome_pending (p : Nat) (o : UnitOp) (t : Bytes) (s : State) :
    (sendHome p o t s).pending = s.pending := by simp [sendHome]

@[simp] theorem unitDone_pending (host : Bool) (s : State) : (unitDone host s).pending = s.pending := by
  unfold unitDone
  split <;> simp

@[simp] theorem unitAgain_pending (host : Bool) (s : State) : (unitAgain host s).pending = s.pending := by
  unfold unitAgain
  split <;> simp

@[simp] theorem unitFails_pending (host : Bool) (m : MigInst) (unit : Nat) (err : TierErr) (s : State) :
    (unitFails host m unit err s).pending = s.pending := by
  unfold unitFails
  dsimp only
  repeat' split
  all_goals simp

/-- The state that a unit's operation leaves, whatever its outcome (R218, R220). -/
def UnitRes.after (r : UnitRes) : State :=
  match r with
  | .done s => s
  | .failed _ s => s
  | .again s => s

@[simp] theorem UnitRes.after_done (s : State) : (UnitRes.done s).after = s := rfl
@[simp] theorem UnitRes.after_failed (err : TierErr) (s : State) : (UnitRes.failed err s).after = s := rfl
@[simp] theorem UnitRes.after_again (s : State) : (UnitRes.again s).after = s := rfl

theorem andThen_pending (r : UnitRes) (f : State → State) (hf : ∀ s, (f s).pending = s.pending) :
    (r.andThen f).after.pending = r.after.pending := by
  cases r with
  | done s => exact hf s
  | failed | again => rfl

theorem writeHome_pending (acked : Bool) (o : UnitOp) (s : State) :
    (writeHome acked o s).after.pending = s.pending := by
  unfold writeHome
  dsimp only
  repeat' split
  all_goals simp

theorem fetchUnit_pending (home : Option Bytes) (tries : Nat) (o : UnitOp) (s : State) :
    (fetchUnit home tries o s).after.pending = s.pending := by
  unfold fetchUnit
  dsimp only
  repeat' split
  all_goals simp

theorem evictUnit_pending (acked : Bool) (o : UnitOp) (s : State) :
    (evictUnit acked o s).after.pending = s.pending := by
  rw [evictUnit, andThen_pending _ _ (vacate_pending o.unit), writeHome_pending]

theorem writebackUnit_pending (acked : Bool) (o : UnitOp) (s : State) :
    (writebackUnit acked o s).after.pending = s.pending := by
  rw [writebackUnit, andThen_pending _ _ (fun s => updMap_pending s _ _), writeHome_pending]

theorem dropUnit_pending (o : UnitOp) (s : State) : (dropUnit o s).after.pending = s.pending := by
  simp [dropUnit]

theorem allocUnit_pending (o : UnitOp) (s : State) : (allocUnit o s).after.pending = s.pending := by
  rw [allocUnit, UnitRes.after_done, updMap_pending, occupy_pending, writeStack_pending]

theorem moveUnit_pending (o : UnitOp) (s : State) : (moveUnit o s).after.pending = s.pending := by
  unfold moveUnit
  dsimp only
  split <;> simp

theorem bindUnit_pending (o : UnitOp) (s : State) : (bindUnit o s).after.pending = s.pending := by
  simp [bindUnit]

theorem unbindUnit_pending (o : UnitOp) (s : State) : (unbindUnit o s).after.pending = s.pending := by
  simp [unbindUnit]

theorem tierStep_pending (op : Nat) (host : Bool) (work : Nat → UnitOp → State → UnitRes)
    (hw : ∀ tries o s, (work tries o s).after.pending = s.pending) (s : State) :
    (tierStep op host work s).pending = s.pending := by
  have hafter {tries : Nat} {o : UnitOp} {r : UnitRes} (h : work tries o (applyWrites s) = r) :
      r.after.pending = s.pending := by
    rw [← h, hw, applyWrites_pending]
  unfold tierStep
  dsimp only
  split
  · simp
  · split
    · simp
    · split
      · simp
      · split
        · simp
        · split
          next t h => exact (unitDone_pending host t).trans (hafter h)
          next err t h => exact (unitFails_pending _ _ _ _ t).trans (hafter h)
          next t h => exact (unitAgain_pending host t).trans (hafter h)

/-! The weir controller (R162 to R169) -/

@[simp] theorem noteLast_pending (rank last index : Nat) (s : State) :
    (noteLast rank last index s).pending = s.pending := by simp [noteLast]

@[simp] theorem latchOwn_pending (i : Nat) (s : State) : (latchOwn i s).pending = s.pending := by
  unfold latchOwn
  repeat' split
  all_goals simp

@[simp] theorem latchDeferred_pending (i : Nat) (s : State) : (latchDeferred i s).pending = s.pending := by
  unfold latchDeferred
  repeat' split
  all_goals simp

@[simp] theorem noteDrop_pending (gear : Nat) (s : State) :
    (noteDrop gear s).pending = s.pending := by simp [noteDrop]
@[simp] theorem logWeir_pending (r : WeirRec) (s : State) : (logWeir r s).pending = s.pending := by simp [logWeir]
@[simp] theorem releaseSluices_pending (w : Nat) (s : State) :
    (releaseSluices w s).pending = s.pending := by simp [releaseSluices]
@[simp] theorem releaseLists_pending (w : Nat) (s : State) :
    (releaseLists w s).pending = s.pending := by simp [releaseLists]
@[simp] theorem countHold_pending (r : WeirRec) (s : State) :
    (countHold r s).pending = s.pending := by simp [countHold]

@[simp] theorem doRelease_pending (e : WeirEntry) (s : State) : (doRelease e s).pending = s.pending := by
  simp [doRelease, foldl_pending _ fun s c => updCluster_pending s c _]

@[simp] theorem latchAll_pending (s : State) : (latchAll s).pending = s.pending := by
  unfold latchAll
  repeat' split
  all_goals simp

@[simp] theorem releaseLc_pending (s : State) : (releaseLc s).pending = s.pending := by
  unfold releaseLc
  repeat' split
  all_goals simp

/-! The passing of lc (R7) -/

@[simp] theorem tryRelease_pending (t : State) : (tryRelease t).pending = t.pending := by
  unfold tryRelease
  dsimp only
  repeat' split
  all_goals simp

@[simp] theorem nextLc_pending (t : State) : (nextLc t).pending = t.pending := by simp [nextLc]

@[simp] theorem tick_pending (s : State) : (tick s).pending = s.pending := by
  unfold tick
  dsimp only
  repeat' split
  all_goals simp

@[simp] theorem ticks_pending (n : Nat) (s : State) : (ticks n s).pending = s.pending := by
  induction n generalizing s with
  | zero => rfl
  | succ n ih => simp [ticks, ih]

@[simp] theorem advanceTo_pending (t : Nat) (s : State) : (advanceTo t s).pending = s.pending := by simp [advanceTo]

/-! The issue of scalar instructions (R79, R132) -/

@[simp] theorem settle_pending (c : Nat) (w : Work) (s : State) : (settle c w s).pending = s.pending := by
  unfold settle
  split <;> simp

@[simp] theorem issueNow_pending (c : Nat) (k : Sc) (d : Option Dst) (f : Act) (t : State) :
    (issueNow c k d f t).pending = t.pending := by simp [issueNow]

@[simp] theorem gangNow_pending (c : Nat) (d : Option Dst) (f : Act) (t : State) :
    (gangNow c d f t).pending = t.pending := by
  unfold gangNow
  dsimp only
  split
  · simp
  · have hgang := foldl_pending_fst (fun (r : State × List FaultRec) m =>
      (setCluster m (workOf m .s0 d f t).cl r.1, r.2 ++ (workOf m .s0 d f t).bad)) (fun _ _ => setCluster_pending _ _ _)
      (gangOf t c) (t, [])
    split <;> simp [hgang]

@[simp] theorem issueScalar_pending (c : Nat) (k : Sc) (d : Option Dst) (f : Act) (s : State) :
    (issueScalar c k d f s).pending = s.pending := by simp [issueScalar]

/-! The issue of vector instructions (R60) -/

@[simp] theorem vecNow_pending (c v : Nat) (f : Nat → Work → Work) (t : State) :
    (vecNow c v f t).pending = t.pending := by simp [vecNow]
@[simp] theorem issueVec_pending (c v : Nat) (f : Nat → Work → Work) (s : State) :
    (issueVec c v f s).pending = s.pending := by simp [issueVec]

/-! The weir net and the run (R152 to R181) -/

@[simp] theorem tokenFault_pending (c : Nat) (s : State) :
    (tokenFault c s).pending = s.pending := by simp [tokenFault]
@[simp] theorem takeArrive_pending (c : Nat) (s : State) :
    (takeArrive c s).pending = s.pending := by simp [takeArrive]
@[simp] theorem takeLanded_pending (c : Nat) (s : State) :
    (takeLanded c s).pending = s.pending := by simp [takeLanded]

theorem message_pending (c w : Nat) (seen : List Nat) (sent : Bool) (take : State → State)
    (ht : ∀ s, (take s).pending = s.pending) (s : State) : (message c w seen sent take s).pending = s.pending := by
  unfold message
  repeat' split
  all_goals simp [ht]

@[simp] theorem logDigest_pending (r : DigestRec) (s : State) :
    (logDigest r s).pending = s.pending := by simp [logDigest]

@[simp] theorem readDigest_pending (e : WeirEntry) (g : DigRead) (s : State) :
    (readDigest e g s).pending = s.pending := by
  unfold readDigest
  dsimp only
  split <;> simp

@[simp] theorem auditQueues_pending (s : State) : (auditQueues s).pending = s.pending := by
  unfold auditQueues
  split <;> simp

@[simp] theorem setHold_pending (v : Bool) (s : State) : (setHold v s).pending = s.pending := by simp [setHold]
@[simp] theorem setRelayDis_pending (v : Bool) (s : State) :
    (setRelayDis v s).pending = s.pending := by simp [setRelayDis]

/-! Lane faults (R136, R137) -/

@[simp] theorem logLink_pending (code : Nat) (e : BitVec 32) (s : State) :
    (logLink code e s).pending = s.pending := by simp [logLink]
@[simp] theorem failLink_pending (code : Nat) (s : State) (x : Nat × Dir) :
    (failLink code s x).pending = s.pending := by simp [failLink]
@[simp] theorem addLanes_pending (new : List (BitVec 32)) (s : State) :
    (addLanes new s).pending = s.pending := by simp [addLanes]

/-! The cold start (R349 to R358) -/

@[simp] theorem powerOff_pending (s : State) : (powerOff s).pending = s.pending := by simp [powerOff]
@[simp] theorem powerOn_pending (s : State) : (powerOn s).pending = s.pending := by simp [powerOn]
@[simp] theorem logFailure_pending (o : ColdOutcome) (cause : Nat) (s : State) :
    (logFailure o cause s).pending = s.pending := by simp [logFailure]
@[simp] theorem startFails_pending (o : ColdOutcome) (cause : Nat) (s : State) :
    (startFails o cause s).pending = s.pending := by simp [startFails]
@[simp] theorem stepSpan_pending (n budget : Nat) (s : State) :
    (stepSpan n budget s).2.pending = s.pending := by simp [stepSpan]
@[simp] theorem passStep_pending (n ns : Nat) (s : State) :
    (passStep n ns s).pending = s.pending := by simp [passStep]
@[simp] theorem stepDone_pending (n budget : Nat) (s : State) :
    (stepDone n budget s).pending = s.pending := by simp [stepDone]

@[simp] theorem unlessFails_pending (o : ColdOutcome) (cause : Option Nat) (next : State → State)
    (hn : ∀ s, (next s).pending = s.pending) (s : State) : (unlessFails o cause next s).pending = s.pending := by
  cases cause with
  | none => exact hn s
  | some c => simp [unlessFails]

@[simp] theorem deriveIdentity_pending (o : ColdOutcome) (s : State) :
    (deriveIdentity o s).pending = s.pending := by simp [deriveIdentity]
@[simp] theorem logPolicy_pending (code : Nat) (b : Nat × Bytes) (s : State) :
    (logPolicy code b s).pending = s.pending := by simp [logPolicy]
@[simp] theorem readPolicies_pending (s : State) : (readPolicies s).pending = s.pending := by simp [readPolicies]
@[simp] theorem calibrate_pending (o : ColdOutcome) (s : State) :
    (calibrate o s).pending = s.pending := by simp [calibrate]
@[simp] theorem setVoltage_pending (o : ColdOutcome) (s : State) (f : Nat) :
    (setVoltage o s f).pending = s.pending := by simp [setVoltage]

@[simp] theorem logTest_pending (o : ColdOutcome) (s : State) : (logTest o s).pending = s.pending := by
  simp [logTest, foldl_pending _ fun s e => logEvent_pending s _ _ _ _ _]

@[simp] theorem mergeMap_pending (o : ColdOutcome) (s : State) : (mergeMap o s).pending = s.pending := by
  simp [mergeMap, foldl_pending _ fun s c => logEvent_pending s _ _ _ _ _]

@[simp] theorem coldStep9_pending (o : ColdOutcome) (s : State) :
    (coldStep9 o s).pending = s.pending := by simp [coldStep9]
@[simp] theorem coldStep8_pending (o : ColdOutcome) (s : State) :
    (coldStep8 o s).pending = s.pending := by simp [coldStep8]
@[simp] theorem coldStep7_pending (o : ColdOutcome) (s : State) :
    (coldStep7 o s).pending = s.pending := by simp [coldStep7]
@[simp] theorem coldStep6_pending (o : ColdOutcome) (s : State) :
    (coldStep6 o s).pending = s.pending := by simp [coldStep6]
@[simp] theorem coldStep5_pending (o : ColdOutcome) (s : State) :
    (coldStep5 o s).pending = s.pending := by simp [coldStep5]
@[simp] theorem coldStep4_pending (o : ColdOutcome) (s : State) :
    (coldStep4 o s).pending = s.pending := by simp [coldStep4]
@[simp] theorem coldStep2_pending (o : ColdOutcome) (s : State) :
    (coldStep2 o s).pending = s.pending := by simp [coldStep2]
@[simp] theorem coldStart_pending (o : ColdOutcome) (s : State) :
    (coldStart o s).pending = s.pending := by simp [coldStart]

/-! Runs, the logical identity and lending (R159, R228, R248) -/

@[simp] theorem startRun_pending (i : Image) (pl : Bytes) (s : State) : (startRun i pl s).pending = s.pending := by
  unfold startRun
  dsimp only
  split <;> simp

@[simp] theorem endEpoch_pending (s : State) : (endEpoch s).pending = s.pending := by simp [endEpoch]

@[simp] theorem loadFilter_pending (ps : List Nat) (tag : BitVec 16) (epoch : BitVec 8) (s : State) :
    (loadFilter ps tag epoch s).pending = s.pending := by
  simp [loadFilter, foldl_pending _ fun s p => updPort_pending s p _]

@[simp] theorem startLend_pending (l : Lend) (s : State) : (startLend l s).pending = s.pending := by simp [startLend]
@[simp] theorem scrubSlots_pending (first n : Nat) (s : State) :
    (scrubSlots first n s).pending = s.pending := by simp [scrubSlots]
@[simp] theorem endSession_pending (l : Lend) (s : State) :
    (endSession l s).pending = s.pending := by simp [endSession]

/-! The manifest (R188 to R201, R260) -/

@[simp] theorem openLoad_pending (d : LoadDecl) (s : State) : (openLoad d s).pending = s.pending := by simp [openLoad]

@[simp] theorem logFail_pending (f : CheckFail) (s : State) : (logFail f s).pending = s.pending := by
  unfold logFail
  split <;> simp

@[simp] theorem bgFail_pending (opcode : Nat) (f : CheckFail) (s : State) :
    (bgFail opcode f s).pending = s.pending := by simp [bgFail]

@[simp] theorem endVerify_pending (d : LoadDecl) (s : State) : (endVerify d s).pending = s.pending := by
  unfold endVerify
  dsimp only
  split <;> simp

@[simp] theorem zeroFields_pending (pick : Nat → Bool) (s : State) :
    (zeroFields pick s).pending = s.pending := by simp [zeroFields]

@[simp] theorem writeGroups_pending (sent : Option W128) (field : Nat) (gs : List (Group × Cluster)) (s : State) :
    (writeGroups sent field gs s).pending = s.pending := by
  simp [writeGroups, foldl_pending _ fun s g => setCluster_pending s _ _]

@[simp] theorem writeField_pending (m : Bytes) (patches : List Bytes) (s : State) (f : FieldSect) :
    (writeField m patches s f).pending = s.pending := by
  unfold writeField
  split <;> simp

@[simp] theorem idlePorts_pending (m : Bytes) (s : State) : (idlePorts m s).pending = s.pending := by simp [idlePorts]
@[simp] theorem writePass_pending (r : Resident) (m : Bytes) (s : State) :
    (writePass r m s).pending = s.pending := by simp [writePass]

@[simp] theorem endConfigure_pending (r : Resident) (s : State) : (endConfigure r s).pending = s.pending := by
  unfold endConfigure
  dsimp only
  split <;> simp

@[simp] theorem retire_pending (field : Nat) (s : State) (x : Nat × Nat) :
    (retire field s x).pending = s.pending := by simp [retire]

@[simp] theorem reliefWrite_pending (r : Resident) (m p : Bytes) (s : State) :
    (reliefWrite r m p s).pending = s.pending := by
  unfold reliefWrite
  dsimp only
  split <;> simp

@[simp] theorem endRelief_pending (r : Resident) (p : Bytes) (s : State) : (endRelief r p s).pending = s.pending := by
  unfold endRelief
  dsimp only
  split <;> simp

/-! Cables (R426) -/

@[simp] theorem setCage_pending (p : Nat) (present : Bool) (s : State) :
    (setCage p present s).pending = s.pending := by simp [setCage]

@[simp] theorem replays_pending (n p : Nat) (s : State) : (replays n p s).pending = s.pending := by
  induction n generalizing s with
  | zero => rfl
  | succ n ih => simp [replays, ih]

/-! Feeds, supplies, sensors and trips (R381 to R393) -/

@[simp] theorem setFeed_pending (f : Feed) (r : FeedReg) (s : State) : (setFeed f r s).pending = s.pending := by
  unfold setFeed
  split <;> simp

@[simp] theorem inputPower_pending (s : State) : (inputPower s).2.pending = s.pending := by
  unfold inputPower
  dsimp only
  repeat' split
  all_goals simp

@[simp] theorem settleLoad_pending (s : State) : (settleLoad s).pending = s.pending := by simp [settleLoad]
@[simp] theorem feedAt_pending (f : Feed) (mv : Nat) (s : State) :
    (feedAt f mv s).pending = s.pending := by simp [feedAt]
@[simp] theorem checkFeeds_pending (s : State) : (checkFeeds s).pending = s.pending := by simp [checkFeeds]
@[simp] theorem loseFeed_pending (f : Feed) (mv : Nat) (s : State) :
    (loseFeed f mv s).pending = s.pending := by simp [loseFeed]
@[simp] theorem fieldOff_pending (how : SupplyState) (s : State) (f : Nat) :
    (fieldOff how s f).pending = s.pending := by simp [fieldOff]

@[simp] theorem fatals_pending (fs : List FaultRec) (s : State) : (fatals fs s).pending = s.pending := by
  unfold fatals
  repeat' split
  all_goals simp

@[simp] theorem requestGear_pending (s : State) (r : Reading) :
    (requestGear s r).pending = s.pending := by simp [requestGear]

@[simp] theorem sample_pending (rs : List Reading) (s : State) : (sample rs s).pending = s.pending := by
  unfold sample
  dsimp only
  rw [foldl_pending]
  · simp
  · intro s x
    split <;> simp

/-! Register writes (R328, R334) -/

@[simp] theorem writeGear_pending (v : Nat) (s : State) : (writeGear v s).pending = s.pending := by simp [writeGear]
@[simp] theorem writeMsix_pending (off v : Nat) (s : State) :
    (writeMsix off v s).pending = s.pending := by simp [writeMsix]

/-! Warm start and salvage (R359 to R361) -/

@[simp] theorem resetLattice_pending (s : State) : (resetLattice s).pending = s.pending := by simp [resetLattice]
@[simp] theorem freshInit_pending (p : Nat) (s : State) : (freshInit p s).pending = s.pending := by simp [freshInit]

@[simp] theorem dropLend_pending (s : State) : (dropLend s).pending = s.pending := by
  unfold dropLend
  split <;> simp

@[simp] theorem beginWarm_pending (s : State) : (beginWarm s).pending = s.pending := by simp [beginWarm]
@[simp] theorem enterSalvage_pending (s : State) : (enterSalvage s).pending = s.pending := by simp [enterSalvage]
@[simp] theorem leaveSalvage_pending (s : State) : (leaveSalvage s).pending = s.pending := by simp [leaveSalvage]
@[simp] theorem warmFrom_pending (salvage : Bool) (s : State) :
    (warmFrom salvage s).pending = s.pending := by simp [warmFrom]
@[simp] theorem fieldStaysOff_pending (s : State) (f : Nat) :
    (fieldStaysOff s f).pending = s.pending := by simp [fieldStaysOff]
@[simp] theorem fieldReturns_pending (s : State) (f : Nat) :
    (fieldReturns s f).pending = s.pending := by simp [fieldReturns]
@[simp] theorem warmFindings_pending (o : WarmOutcome) (s : State) :
    (warmFindings o s).pending = s.pending := by simp [warmFindings]

/-! The salvage area (R390, R409) -/

@[simp] theorem writeSalvage_pending (fuel k : Nat) (bs : Bytes) (s : State) :
    (writeSalvage fuel k bs s).pending = s.pending := by
  induction fuel generalizing k bs s with
  | zero => rfl
  | succ fuel ih => simp [writeSalvage, ih]

@[simp] theorem writeRecords_pending (rs : List (Nat × Nat)) (pos : Nat) (s : State) :
    (writeRecords rs pos s).1.pending = s.pending := by
  induction rs generalizing pos s with
  | nil => rfl
  | cons r rs ih => simp [writeRecords, ih]

/-! The host link and its memory accesses (R225, R226, R326) -/

@[simp] theorem resetConfig_pending (s : State) : (resetConfig s).pending = s.pending := by simp [resetConfig]
@[simp] theorem hostRead_pending (key n : Nat) (s : State) :
    (hostRead key n s).2.pending = s.pending := by simp [hostRead]

@[simp] theorem readPiece_pending (off n : Nat) (s : State) : (readPiece off n s).2.pending = s.pending := by
  unfold readPiece
  repeat' split
  all_goals simp

@[simp] theorem readPieces_pending (fuel off left : Nat) (s : State) :
    (readPieces fuel off left s).2.pending = s.pending := by
  induction fuel generalizing off left s with
  | zero => rfl
  | succ fuel ih => simp [readPieces, ih]

@[simp] theorem poisonBytes_pending (n : Nat) (s : State) :
    (poisonBytes n s).2.pending = s.pending := by simp [poisonBytes]

@[simp] theorem writePiece_pending (off : Nat) (bs : Bytes) (s : State) :
    (writePiece off bs s).2.pending = s.pending := by
  unfold writePiece
  repeat' split
  all_goals simp

@[simp] theorem writePieces_pending (fuel off : Nat) (bs : Bytes) (s : State) :
    (writePieces fuel off bs s).2.pending = s.pending := by
  induction fuel generalizing off bs s with
  | zero => rfl
  | succ fuel ih => simp [writePieces, ih]

/-! The mesh commands (R140, R256) -/

@[simp] theorem closeLc_pending (r : State × List FaultRec) : (closeLc r).pending = r.1.pending := by
  unfold closeLc
  split <;> simp

@[simp] theorem routerLc_pending (c : Nat) (s : State) : (routerLc c s).pending = s.pending := by simp [routerLc]
@[simp] theorem presentFlit_pending (c : Nat) (inp : Dir) (f : Flit) (s : State) :
    (presentFlit c inp f s).pending = s.pending := by simp [presentFlit]

@[simp] theorem gateCmd_pending (g : GateId) (kind : Nat → Bool) (s : State) :
    (gateCmd g kind s).pending = s.pending := by
  unfold gateCmd
  dsimp only
  repeat' split
  all_goals simp

/-! ## What a command answers (log entry 106) -/

/-- A command that names existing places leads to a next state with the same queue, any other stops. -/
def Answers (ok : Bool) (s : State) (o : Out) : Prop := ∃ t, o = onPlace ok t ∧ t.pending = s.pending

theorem vendor_answers (op : Nat) (whileBg : Bool) (states : List DevState) (work : State → State) (s : State)
    (hw : ∀ s, (work s).pending = s.pending) : Answers true s (vendor op whileBg states work s) :=
  ⟨_, rfl, by simp [hw]⟩

theorem scalarCmd_answers (c : Nat) (k : Sc) (d : Option Dst) (f : Act) (s : State) :
    Answers (isCluster c) s (scalarCmd c k d f s) :=
  ⟨_, rfl, issueScalar_pending c k d f s⟩

theorem vecCmd_answers (c v : Nat) (f : Nat → Work → Work) (s : State) : Answers (vecWf c v) s (vecCmd c v f s) :=
  ⟨_, rfl, issueVec_pending c v _ s⟩

theorem tierStep_answers (op : Nat) (host : Bool) (work : Nat → UnitOp → State → UnitRes) (s : State)
    (hw : ∀ tries o s, (work tries o s).after.pending = s.pending) :
    Answers true s (.next (tierStep op host work s)) :=
  ⟨_, rfl, tierStep_pending op host work hw s⟩

theorem extractStep_answers (mode stack list : Nat) (s : State) :
    Answers (decide (stack < 16)) s (extractStep mode stack list s) := by
  refine ⟨_, rfl, ?_⟩
  dsimp only
  repeat' split
  all_goals simp

theorem inOrder_answers (ok : Bool) (f : State → State) (s : State) (hf : ∀ s, (f s).pending = s.pending) :
    Answers ok s (onPlace ok (inOrder f s)) :=
  ⟨_, rfl, inOrder_pending f hf s⟩

theorem receiveBulk_answers (ok : Bool) (p vl ftype : Nat) (f : Bytes) (h : Bytes → State → State) (s : State)
    (hh : ∀ b s, (h b s).pending = s.pending) : Answers ok s (onPlace ok (receiveBulk p vl ftype f h s)) :=
  ⟨_, rfl, receiveBulk_pending p vl ftype f h hh s⟩

theorem receiveControl_answers (ok : Bool) (p ctype : Nat) (f : Bytes) (h : State → State) (s : State)
    (hh : ∀ s, (h s).pending = s.pending) : Answers ok s (onPlace ok (receiveControl p ctype f h s)) :=
  ⟨_, rfl, receiveControl_pending p ctype f h hh s⟩

theorem message_answers (ok : Bool) (c w : Nat) (seen : List Nat) (sent : Bool) (take : State → State) (s : State)
    (ht : ∀ s, (take s).pending = s.pending) : Answers ok s (onPlace ok (message c w seen sent take s)) :=
  ⟨_, rfl, message_pending c w seen sent take ht s⟩

/-! The vendor commands of the mailbox (R338 to R345), whose work `vendor` lets through by state (R340). -/

theorem execMapRead_answers (s : State) : Answers true s (execMapRead s) :=
  vendor_answers _ _ _ _ s fun s => by simp

theorem execLoad_answers (pl : Bytes) (s : State) : Answers true s (execLoad pl s) :=
  vendor_answers _ _ _ _ s fun s => by simp

theorem execVerify_answers (s : State) : Answers true s (execVerify s) :=
  vendor_answers _ _ _ _ s fun s => by simp

theorem execConfigure_answers (s : State) : Answers true s (execConfigure s) :=
  vendor_answers _ _ _ _ s fun s => by simp

theorem execRelief_answers (pl : Bytes) (s : State) : Answers true s (execRelief pl s) := by
  refine vendor_answers _ _ _ _ s fun s => ?_
  split <;> simp

theorem execRun_answers (pl : Bytes) (s : State) : Answers true s (execRun pl s) := by
  refine vendor_answers _ _ _ _ s fun s => ?_
  split <;> simp

theorem execWeirRelease_answers (pl : Bytes) (s : State) : Answers true s (execWeirRelease pl s) := by
  refine vendor_answers _ _ _ _ s fun s => ?_
  split <;> simp

theorem execFreeze_answers (s : State) : Answers true s (execFreeze s) :=
  vendor_answers _ _ _ _ s fun s => by simp

theorem execWarmStart_answers (pl : Bytes) (s : State) : Answers true s (execWarmStart pl s) := by
  unfold execWarmStart
  dsimp only
  split
  · exact vendor_answers _ _ _ _ s (by simp)
  · exact vendor_answers _ _ _ _ s (by simp)

theorem execContWarm_answers (s : State) : Answers true s (execContWarm s) :=
  vendor_answers _ _ _ _ s fun s => by simp

theorem execReadback_answers (pl : Bytes) (s : State) : Answers true s (execReadback pl s) :=
  vendor_answers _ _ _ _ s fun s => by simp

theorem execAttest_answers (pl : Bytes) (s : State) : Answers true s (execAttest pl s) :=
  vendor_answers _ _ _ _ s fun s => by simp

theorem execSetIdentity_answers (pl : Bytes) (s : State) : Answers true s (execSetIdentity pl s) :=
  vendor_answers _ _ _ _ s fun s => by simp

theorem execLend_answers (pl : Bytes) (s : State) : Answers true s (execLend pl s) :=
  vendor_answers _ _ _ _ s fun s => by simp

theorem execEndLend_answers (s : State) : Answers true s (execEndLend s) :=
  vendor_answers _ _ _ _ s fun s => by simp

theorem execShadowGuard_answers (pl : Bytes) (s : State) : Answers true s (execShadowGuard pl s) :=
  vendor_answers _ _ _ _ s fun s => by simp

theorem execSetQuota_answers (pl : Bytes) (s : State) : Answers true s (execSetQuota pl s) := by
  refine vendor_answers _ _ _ _ s fun s => ?_
  split <;> simp

theorem execMigPost_answers (pl : Bytes) (s : State) : Answers true s (execMigPost pl s) :=
  vendor_answers _ _ _ _ s fun s => by simp

theorem execMigStatus_answers (pl : Bytes) (s : State) : Answers true s (execMigStatus pl s) :=
  vendor_answers _ _ _ _ s fun s => by simp

theorem execTqPost_answers (pl : Bytes) (s : State) : Answers true s (execTqPost pl s) :=
  vendor_answers _ _ _ _ s fun s => by simp

theorem execSluiceOpen_answers (pl : Bytes) (s : State) : Answers true s (execSluiceOpen pl s) := by
  refine vendor_answers _ _ _ _ s fun s => ?_
  dsimp only
  repeat' split
  all_goals simp

theorem execSluiceClose_answers (pl : Bytes) (s : State) : Answers true s (execSluiceClose pl s) :=
  vendor_answers _ _ _ _ s fun s => by simp

theorem execKeyLoad_answers (pl : Bytes) (s : State) : Answers true s (execKeyLoad pl s) :=
  vendor_answers _ _ _ _ s fun s => by simp

theorem execPortReset_answers (pl : Bytes) (s : State) : Answers true s (execPortReset pl s) :=
  vendor_answers _ _ _ _ s fun s => by simp

theorem execTimeOffsetSet_answers (pl : Bytes) (s : State) : Answers true s (execTimeOffsetSet pl s) :=
  vendor_answers _ _ _ _ s fun s => by simp

theorem execLogRead_answers (pl : Bytes) (s : State) : Answers true s (execLogRead pl s) :=
  vendor_answers _ _ _ _ s fun s => by simp

theorem execBgResult_answers (s : State) : Answers true s (execBgResult s) :=
  vendor_answers _ _ _ _ s fun s => by simp

/-! All the commands -/

/-- Each command answers by the rule of its family. -/
theorem exec_answers (i : Instr) (s : State) : Answers i.wf s (exec i s) := by
  cases i with
  -- The cores: an instruction issues or waits, and the engine goes on.
  | alu | addi | andi | ori | xori | shi | movk | beq | bne | blt | bge | bltu | bgeu | jmp | call | ret | loop
    | wait | waitr | mop | vstart | s1start | weir | lda | stn | aop | mova | tload | gload | s1End
    => exact scalarCmd_answers _ _ _ _ s
  | fadd | fsub | fmul | fma | fms | fnma | fnms | fmin | fmax | fabs | fneg | fcmp | sel | iadd | isub | iand | ior
    | ixor | ishl | ishr | isar | icmp | wadd | wsub | bcast | perm | unpk | rsum | rmin | rmax | teval | tgrad | cvt
    | cvtmx | cvtxf | cvtg | cvts | cvtsf | scnt | dbegin | dfold | dfoldt | dend | dread | dclr | gst | gdraw
    | gdrawi | ld | st | pop | push | li => exact vecCmd_answers _ _ _ s
  | rep | vectorEnd => exact ⟨_, rfl, issueVec_pending _ _ _ s⟩
  | stop c => exact ⟨_, rfl, by simp [foldl_pending _ fun s m => updCluster_pending s m _]⟩
  -- The vendor commands of the mailbox.
  | mapRead => exact execMapRead_answers s
  | load pl => exact execLoad_answers pl s
  | verify => exact execVerify_answers s
  | configure => exact execConfigure_answers s
  | relief pl => exact execRelief_answers pl s
  | run pl => exact execRun_answers pl s
  | weirRelease pl => exact execWeirRelease_answers pl s
  | freeze => exact execFreeze_answers s
  | warmStart pl => exact execWarmStart_answers pl s
  | contWarm => exact execContWarm_answers s
  | readback pl => exact execReadback_answers pl s
  | attest pl => exact execAttest_answers pl s
  | setIdentity pl => exact execSetIdentity_answers pl s
  | lend pl => exact execLend_answers pl s
  | endLend => exact execEndLend_answers s
  | shadowGuard pl => exact execShadowGuard_answers pl s
  | setQuota pl => exact execSetQuota_answers pl s
  | migPost pl => exact execMigPost_answers pl s
  | migStatus pl => exact execMigStatus_answers pl s
  | tqPost pl => exact execTqPost_answers pl s
  | sluiceOpen pl => exact execSluiceOpen_answers pl s
  | sluiceClose pl => exact execSluiceClose_answers pl s
  | keyLoad pl => exact execKeyLoad_answers pl s
  | portReset pl => exact execPortReset_answers pl s
  | timeOffsetSet pl => exact execTimeOffsetSet_answers pl s
  | logRead pl => exact execLogRead_answers pl s
  | bgResult => exact execBgResult_answers s
  -- The tier engine and the extraction lists.
  | fetch host home => exact tierStep_answers _ _ _ s (fetchUnit_pending home)
  | evict host acked => exact tierStep_answers _ _ _ s fun _ => evictUnit_pending acked
  | writeback host acked => exact tierStep_answers _ _ _ s fun _ => writebackUnit_pending acked
  | drop => exact tierStep_answers _ _ _ s fun _ => dropUnit_pending
  | alloc => exact tierStep_answers _ _ _ s fun _ => allocUnit_pending
  | move => exact tierStep_answers _ _ _ s fun _ => moveUnit_pending
  | bind => exact tierStep_answers _ _ _ s fun _ => bindUnit_pending
  | unbind => exact tierStep_answers _ _ _ s fun _ => unbindUnit_pending
  | store | addF32 | addI64 => exact extractStep_answers _ _ _ s
  -- Received frames.
  | linkInit p frame => exact receiveControl_answers _ _ _ _ _ s (takeInit_pending p frame)
  | audit | cease | marker | digest | commitAck =>
    refine receiveControl_answers _ _ _ _ _ s ?_
    simp
  | homeRead | homeData | shardReq =>
    refine receiveBulk_answers _ _ _ _ _ _ s ?_
    simp
  | homeWrite =>
    refine receiveBulk_answers _ _ _ _ _ _ s fun f s => ?_
    split <;> simp
  | tile p vl frame =>
    refine ⟨_, rfl, ?_⟩
    split
    · rfl
    · exact receiveBulk_pending _ _ _ _ _ (by simp) s
  -- Work done in order after the extraction writes that have started.
  | descriptorStart | timeout | shardCheck =>
    refine inOrder_answers _ _ s fun s => ?_
    repeat' split
    all_goals simp
  | stagingRead | descriptorComplete =>
    refine inOrder_answers _ _ s fun s => ?_
    dsimp only
    repeat' split
    all_goals simp
  -- The weir net.
  | arrive c w => exact message_answers _ _ _ _ _ _ s (takeArrive_pending c)
  | landed c w => exact message_answers _ _ _ _ _ _ s (by simp)
  -- Commands that are one operation on the state, or nothing.
  | coldStart | powerDown | feedLoss | feedConnect | feedOvervoltage | feedUndervoltage | powerRemoval | flashPgmN
    | hallReferenceChange | htimeFrame | htimeTimeout | sensorSample | watchdog | cableInsert | cableRemoval
    | perstNRelease | hotReset | functionLevelReset | hostLinkLoss | hdmCommit | spdmMessage | hdmWrite | hold
    | relayDis | gearReqClear | gearDropClear | frameErrRead | identify | getEventRecords | clearEventRecords
    | getTimestamp | setTimestamp | getSupportedLogs | identifyMemoryDevice | unsupported | flit | landingWrite
    | gateInject | gateExtract | conditionLatch | sluiceDrained | sentinelRoutine | runEnd | pcsLock | portFlit
    | retrainComplete | portDown | busOrHubSupplyFault | thermalHistoryRecord => exact ⟨_, rfl, by simp⟩
  -- Commands whose operation depends on what they find.
  | sensorSilent | supplyFault | regWrite | backgroundOperationStatus | getLog | verifyDone | configureDone
    | reliefDone | warmStartDone | readbackDone | attestDone | scrubComplete | release | resume | relayEligible
    | relayChoice | digestRead | weirDeadline | auditSend | landingBufferReserve =>
    refine ⟨_, rfl, ?_⟩
    repeat' split
    all_goals simp
  | hdmRead | replayTimeout =>
    refine ⟨_, rfl, ?_⟩
    dsimp only
    repeat' split
    all_goals simp

/-- Settles O55, from what each command answers. -/
theorem everyCommandAnswers : Obligations.EveryCommandAnswers := by
  unfold Obligations.EveryCommandAnswers
  intro i s
  obtain ⟨t, hexec, hqueue⟩ := exec_answers i s
  rw [hexec]
  exact ⟨fun hwf => ⟨t, by rw [hwf]; rfl, hqueue⟩, fun hwf => by rw [hwf]; rfl⟩

end Sys2Proof.Machine
end

section
/-! PROOF. The weir controller's decisions and what leaves it alone: latching (R162, R163), the lattice's work in an lc
(R95, R138, R148), the entry to the safe state (R397), and on these the relay, the deadline, HOLD and RELAY_DIS (R164 to
R171). -/

namespace Sys2Proof.Machine

/-! ## Latching (R162, R163, R166) -/

/-- The note of the last event changes nothing but that note. -/
theorem noteLast_frame (rank last index : Nat) (s : State) :
    noteLast rank last index s =
      { s with weir := { s.weir with
          last := (noteLast rank last index s).weir.last, lastIndex := (noteLast rank last index s).weir.lastIndex,
          lastLc := (noteLast rank last index s).weir.lastLc, lastRank := (noteLast rank last index s).weir.lastRank } } := by
  unfold noteLast
  dsimp only
  split <;> rfl

/-- The state apart from what latching may change: the latches and the note of the last event. -/
def outsideLatches (s : State) : State :=
  { s with weir := { s.weir with latched := [], deferred := [], last := 0, lastIndex := 0, lastLc := 0, lastRank := 0 } }

theorem outsideLatches_noteLast (rank last index : Nat) (s : State) :
    outsideLatches (noteLast rank last index s) = outsideLatches s := by
  rw [noteLast_frame]
  rfl

theorem outsideLatches_latchOwn (i : Nat) (s : State) : outsideLatches (latchOwn i s) = outsideLatches s := by
  unfold latchOwn
  split
  · rfl
  split
  · rfl
  split
  · rfl
  · exact outsideLatches_noteLast _ _ _ _

theorem outsideLatches_latchDeferred (i : Nat) (s : State) : outsideLatches (latchDeferred i s) = outsideLatches s := by
  unfold latchDeferred
  split
  · rfl
  split
  · rfl
  split
  · rfl
  · exact outsideLatches_noteLast _ _ _ _

theorem outsideLatches_latchAll (s : State) : outsideLatches (latchAll s) = outsideLatches s := by
  unfold latchAll
  split
  · rfl
  next e _ =>
    calc
      _ = outsideLatches ((List.range e.conds.length).foldl (fun s i => latchOwn i s) s) :=
        foldl_keeps outsideLatches _ (fun s (d : Deferred) => outsideLatches_latchDeferred d.index s) _ _
      _ = outsideLatches s := foldl_keeps outsideLatches _ (fun s i => outsideLatches_latchOwn i s) _ _

@[simp] theorem latchAll_logs (s : State) : (latchAll s).logs = s.logs :=
  (congrArg State.logs (outsideLatches_latchAll s) :)
@[simp] theorem latchAll_await (s : State) : (latchAll s).weir.await = s.weir.await :=
  (congrArg (fun t : State => t.weir.await) (outsideLatches_latchAll s) :)
@[simp] theorem latchAll_arrived (s : State) : (latchAll s).weir.arrived = s.weir.arrived :=
  (congrArg (fun t : State => t.weir.arrived) (outsideLatches_latchAll s) :)
@[simp] theorem latchAll_landed (s : State) : (latchAll s).weir.landed = s.weir.landed :=
  (congrArg (fun t : State => t.weir.landed) (outsideLatches_latchAll s) :)
@[simp] theorem participants_latchAll (s : State) : participants (latchAll s) = participants s :=
  (congrArg participants (outsideLatches_latchAll s) :)

/-! ## The lattice's work in an lc (R95, R138 to R141, R148) -/

/-- The state apart from what the lattice's work in an lc may change: clusters, links, gates, the buffers of the ring dies,
and the staging and extraction lists with their writes to come. -/
def outsideLattice (s : State) : State :=
  { s with clusters := [], wires := [], gates := [], rings := [], tier := { s.tier with stages := [], writes := [] } }

theorem outsideLattice_sendFlit (c now : Nat) (d : Dir) (f : Flit) (src : Nat) (s : State) :
    outsideLattice (sendFlit c now d f src s) = outsideLattice s := by
  unfold sendFlit
  split
  · split <;> rfl
  · rfl

theorem outsideLattice_routerStep (c now : Nat) (s : State) :
    outsideLattice (routerStep c now s).1 = outsideLattice s := by
  unfold routerStep
  dsimp only
  split
  · rfl
  split
  · rfl
  split
  · rfl
  split
  · rfl
  · exact foldl_keeps outsideLattice _ (fun s x => outsideLattice_sendFlit c now _ _ _ s) _ _

theorem outsideLattice_takeSluice (d i : Nat) (s : State) :
    outsideLattice (takeSluice d i s).2 = outsideLattice s := by
  unfold takeSluice
  dsimp only
  split
  · rfl
  · split <;> rfl

theorem outsideLattice_takeStaged (stack l : Nat) (s : State) :
    outsideLattice (takeStaged stack l s).2 = outsideLattice s := by
  unfold takeStaged
  dsimp only
  split <;> rfl

theorem outsideLattice_putExtracted (k : Nat) (bs : Bytes) (s : State) :
    outsideLattice (putExtracted k bs s) = outsideLattice s := by
  unfold putExtracted
  dsimp only
  split <;> rfl

theorem outsideLattice_gateInjectStep (g : Gate) (e now : Nat) (s : State) :
    outsideLattice (gateInjectStep g e now s) = outsideLattice s := by
  unfold gateInjectStep
  dsimp only
  have htaken : outsideLattice (if g.id.stackGate then takeStaged g.id.site (bits (gateObj e) 15 0) s
      else takeSluice g.id.site (bits (gateObj e) 14 0) s).2 = outsideLattice s := by
    split
    · exact outsideLattice_takeStaged _ _ s
    · exact outsideLattice_takeSluice _ _ s
  split
  · exact htaken
  · exact htaken

theorem outsideLattice_gateExtractStep (g : Gate) (e now : Nat) (s : State) :
    outsideLattice (gateExtractStep g e now s).1 = outsideLattice s := by
  unfold gateExtractStep
  extract_lets north dst inp sender due
  split
  · rfl
  split
  · rfl
  split
  · split
    · rfl
    · exact outsideLattice_putExtracted _ _ _
  · split <;> rfl

theorem outsideLattice_gateStep (now : Nat) (sf : State × List FaultRec) (g : Gate) :
    outsideLattice (gateStep now sf g).1 = outsideLattice sf.1 := by
  unfold gateStep
  dsimp only
  split
  · rfl
  split
  · rfl
  split
  · exact outsideLattice_gateExtractStep _ _ _ _
  · exact outsideLattice_gateInjectStep _ _ _ _

theorem outsideLattice_routerTurn (now : Nat) (sf : State × List FaultRec) (c : Nat) :
    outsideLattice (routerTurn now sf c).1 = outsideLattice sf.1 := by
  unfold routerTurn
  dsimp only
  split
  · rfl
  · exact outsideLattice_routerStep _ _ _

/-- A turn of every cluster of a list changes clusters alone. -/
theorem outsideLattice_onClusters (f : Nat → Work → Work) (cs : List Nat) (sf : State × List FaultRec) :
    outsideLattice (cs.foldl (onCluster f) sf).1 = outsideLattice sf.1 :=
  foldl_keeps (fun r : State × List FaultRec => outsideLattice r.1) (onCluster f) (fun _ _ => rfl) cs sf

/-- An lc's work stays in the lattice and at its edges. -/
theorem outsideLattice_finishLc (s : State) : outsideLattice (finishLc s).1 = outsideLattice s := by
  have hrouters (cs : List Nat) (sf : State × List FaultRec) :
      outsideLattice (cs.foldl (routerTurn s.lc) sf).1 = outsideLattice sf.1 :=
    foldl_keeps (fun r : State × List FaultRec => outsideLattice r.1) _ (outsideLattice_routerTurn s.lc) cs sf
  have hgates (gs : List Gate) (sf : State × List FaultRec) :
      outsideLattice (gs.foldl (gateStep s.lc) sf).1 = outsideLattice sf.1 :=
    foldl_keeps (fun r : State × List FaultRec => outsideLattice r.1) _ (outsideLattice_gateStep s.lc) gs sf
  unfold finishLc
  exact (outsideLattice_onClusters _ _ _).trans ((hgates _ _).trans ((hrouters _ _).trans (outsideLattice_onClusters _ _ _)))

@[simp] theorem finishLc_weir (s : State) : (finishLc s).1.weir = s.weir :=
  (congrArg State.weir (outsideLattice_finishLc s) :)
@[simp] theorem finishLc_logs (s : State) : (finishLc s).1.logs = s.logs :=
  (congrArg State.logs (outsideLattice_finishLc s) :)

/-! ## Entry to the safe state: the weir controller and the events (R367, R368, R397) -/

@[simp] theorem noteFault_weir (f : FaultRec) (s : State) : (noteFault f s).weir = s.weir := by
  unfold noteFault suspect
  dsimp only [logEvent_weir]
  repeat' split
  all_goals rfl

theorem noteFaults_eventCount (fs : List FaultRec) (s : State) :
    (fs.foldl (fun s x => noteFault x s) s).logs.eventCount = s.logs.eventCount + fs.length := by
  induction fs generalizing s with
  | nil => rfl
  | cons f fs ih => rw [List.foldl_cons, ih, noteFault_eventCount, List.length_cons]; omega

/-- Ordering the faults of an lc loses none. -/
theorem byCause_length (fs : List FaultRec) : (byCause fs).length = fs.length := by
  unfold byCause
  induction fs with
  | nil => rfl
  | cons f fs ih =>
    rw [List.foldr_cons, List.length_append, List.length_cons, ← Nat.add_assoc, ← List.length_append,
      List.takeWhile_append_dropWhile, ih, List.length_cons]

theorem lowest_mem (f : FaultRec) (fs : List FaultRec) : lowest f fs ∈ f :: fs := by
  unfold lowest
  induction fs generalizing f with
  | nil => exact List.mem_singleton_self f
  | cons x xs ih =>
    rw [List.foldl_cons]
    split
    · exact List.mem_cons_of_mem f (ih x)
    · rcases List.mem_cons.mp (ih f) with h | h
      · rw [h]; exact List.mem_cons_self
      · exact List.mem_cons_of_mem f (List.mem_cons_of_mem x h)

theorem enterSafe_weir (f : FaultRec) (s : State) : (enterSafe f s).weir = s.weir := noteFault_weir f s

theorem enterSafe_eventCount (f : FaultRec) (s : State) :
    (enterSafe f s).logs.eventCount = s.logs.eventCount + 1 := noteFault_eventCount f s

theorem enterWith_weir (f : FaultRec) (fs : List FaultRec) (s : State) : (enterWith f fs s).weir = s.weir :=
  (foldl_keeps State.weir _ (fun s x => noteFault_weir x s) _ _).trans (enterSafe_weir _ s)

/-- Every fault of the lc is logged (R368). -/
theorem enterWith_eventCount (f : FaultRec) (fs : List FaultRec) (s : State) :
    (enterWith f fs s).logs.eventCount = s.logs.eventCount + (f :: fs).length := by
  unfold enterWith
  dsimp only
  rw [noteFaults_eventCount, byCause_length, List.length_erase_of_mem (lowest_mem f fs), enterSafe_eventCount,
    List.length_cons]
  omega

theorem endLc_cons_weir (f : FaultRec) (fs : List FaultRec) (s : State) : (endLc (f :: fs) s).weir = s.weir :=
  (enterWith_weir f _ _).trans (finishLc_weir s)

theorem endLc_cons_eventCount_le (f : FaultRec) (fs : List FaultRec) (s : State) :
    s.logs.eventCount + (f :: fs).length ≤ (endLc (f :: fs) s).logs.eventCount := by
  have h : (endLc (f :: fs) s).logs.eventCount = _ := enterWith_eventCount f (fs ++ (finishLc s).2) (finishLc s).1
  rw [h, finishLc_logs, List.length_cons, List.length_cons, List.length_append]
  omega

/-! ## The relay (R168, R171) -/

theorem exec_relayEligible_awaited (s : State) (e : WeirEntry) (ha : awaited s = some e) :
    exec .relayEligible s =
      .next (if relayOpen s e then { s with weir := { s.weir with eligible := true } } else s) := by
  simp [execRelayEligible, ha, updWeir]

theorem exec_relayChoice_awaited (s : State) (e : WeirEntry) (ha : awaited s = some e) :
    exec .relayChoice s =
      .next (if s.weir.eligible = false ∨ s.weir.relayPosted = true ∨ relayOpen s e = false then s
        else noteLast rankDecision 0xF 0 { s with weir := { s.weir with relayPosted := true } }) := by
  simp [execRelayChoice, ha, updWeir]

/-! ## The deadline (R165) -/

/-- The events that an expiry names, one for each condition not latched and each participant not heard (log entry 66). -/
theorem deadlineFaults_length (s : State) (e : WeirEntry) :
    (deadlineFaults s e).length = (openConds s e).length + (s.weir.deferred.filter (fun d => !d.latched)).length +
      ((participants s).filter (fun c => !(s.weir.arrived.contains c && s.weir.landed.contains c))).length := by
  have hopen (cond : Nat → Cond → FaultRec) :
      ((openConds s e).filterMap (fun i => (e.conds[i]?).map (cond i))).length = (openConds s e).length := by
    refine List.filterMap_length_eq_length.mpr fun i hi => ?_
    have hlt : i < e.conds.length := List.mem_range.mp (List.mem_filter.mp hi).1
    simp [hlt]
  have hmissing : (fun c => !(s.weir.arrived.contains c && s.weir.landed.contains c)) = fun c =>
      (if s.weir.arrived.contains c && s.weir.landed.contains c then none
       else some (weirFault cWeirDeadline (2 ^ 61 + 2 ^ 59 * b2n (!s.weir.arrived.contains c) +
         2 ^ 58 * b2n (!s.weir.landed.contains c) + c))).isSome := by
    funext c
    cases s.weir.arrived.contains c && s.weir.landed.contains c <;> rfl
  unfold deadlineFaults
  dsimp only
  rw [List.length_append, List.length_append, hopen, List.length_map, List.length_filterMap_eq_countP,
    List.countP_eq_length_filter, hmissing]

/-- The answer to an expiry while some participant has been heard. -/
theorem exec_weirDeadline_awaited (s : State) (e : WeirEntry) (ha : awaited s = some e) (hg : gathers s = true)
    (harr : s.weir.arrived ≠ []) :
    exec .weirDeadline s = .next (if s.weir.hold = true ∨ readyToRelease (latchAll s) e = true then s
      else endLc (weirFault cWeirDeadline e.num :: deadlineFaults (latchAll s) e)
        (updWeir (fun w => { w with phase := .expired }) (latchAll s))) := by
  by_cases hh : s.weir.hold = true <;> simp [execWeirDeadline, ha, hg, harr, hh]

/-- An expiry freezes the lattice, with the weir expired and everything that is missing logged. -/
theorem weirDeadline_expires (s : State) (e : WeirEntry) (ha : awaited s = some e) (hg : gathers s = true)
    (harr : s.weir.arrived ≠ []) (hh : s.weir.hold = false) (hr : readyToRelease (latchAll s) e = false) :
    ∃ t, exec .weirDeadline s = .next t ∧ safeWith 0x02 t ∧ t.weir.phase = .expired ∧ t.weir.await = s.weir.await ∧
      s.logs.eventCount + 1 + (openConds (latchAll s) e).length +
        ((latchAll s).weir.deferred.filter (fun d => !d.latched)).length +
        ((participants s).filter (fun c => !(s.weir.arrived.contains c && s.weir.landed.contains c))).length ≤
          t.logs.eventCount := by
  refine ⟨endLc (weirFault cWeirDeadline e.num :: deadlineFaults (latchAll s) e)
    (updWeir (fun w => { w with phase := .expired }) (latchAll s)), ?_, ?_, ?_, ?_, ?_⟩
  · rw [exec_weirDeadline_awaited s e ha hg harr, hh, hr]
    rfl
  · exact endLc_safeWith _ (weirFault cWeirDeadline e.num) _ List.mem_cons_self
  · rw [endLc_cons_weir]
    rfl
  · rw [endLc_cons_weir]
    exact latchAll_await s
  · refine Nat.le_trans (Nat.le_of_eq ?_) (endLc_cons_eventCount_le _ _ _)
    rw [List.length_cons, deadlineFaults_length, updWeir_logs, latchAll_logs, participants_latchAll, latchAll_arrived,
      latchAll_landed]
    omega

/-! ## WEIR_CTRL (R164, R167, R168) -/

/-- HOLD changes its own value, the decision, and the note of the last event. -/
theorem setHold_frame (v : Bool) (s : State) :
    setHold v s =
      { s with weir := { s.weir with
          hold := v, decided := (setHold v s).weir.decided, last := (setHold v s).weir.last,
          lastIndex := (setHold v s).weir.lastIndex, lastLc := (setHold v s).weir.lastLc,
          lastRank := (setHold v s).weir.lastRank } } := by
  unfold setHold
  dsimp only
  split
  · rfl
  split
  · split <;> rfl
  split
  · rfl
  · rw [noteLast_frame]
    rfl

/-- While a weir of the run is awaited, HOLD acts on its decision. -/
theorem not_weirsOver (s : State) (hrun : inRun s = true) (hlt : s.weir.await < weirCount s) :
    ¬(inRun s = false ∨ s.weir.await = weirCount s) := by
  simp [hrun, Nat.ne_of_lt hlt]

/-- HOLD withdraws the decision of a weir that is not yet due (R164). -/
theorem setHold_withdraws (s : State) (hrun : inRun s = true) (hlt : s.weir.await < weirCount s)
    (hdue : s.weir.due = none) : (setHold true s).weir.decided = false := by
  unfold setHold
  dsimp only
  split
  next h => exact absurd h (not_weirsOver s hrun hlt)
  · rw [if_pos rfl]
    split
    · rfl
    next h => exact absurd hdue h

/-- With HOLD back at 0 the decision is posted (R164). -/
theorem setHold_posts (s : State) (hrun : inRun s = true) (hlt : s.weir.await < weirCount s) :
    (setHold false s).weir.decided = true := by
  unfold setHold
  dsimp only
  split
  next h => exact absurd h (not_weirsOver s hrun hlt)
  · rw [if_neg Bool.false_ne_true]
    split
    · assumption
    · rw [noteLast_frame]
      rfl

theorem exec_hold_up (s : State) (v : Bool) (h : mailboxUp s = true) : exec (.hold v) s = .next (setHold v s) := by
  simp [execHold, h]

theorem exec_relayDis_up (s : State) (v : Bool) (h : mailboxUp s = true) :
    exec (.relayDis v) s = .next { s with weir := { s.weir with relayDis := v } } := by
  simp [execRelayDis, h, setRelayDis, updWeir]

/-- Settles O24: the relay by the two commands' answers, the deadline by `weirDeadline_expires`, HOLD by what `setHold`
changes. -/
theorem weirDecisions : Obligations.WeirDecisions := by
  refine ⟨fun s e ha => ⟨fun ho => ?_, fun ho => ?_, fun ho hel hpost => ?_, fun hel => ?_⟩,
    fun s e ha hg harr => ⟨fun hh => ?_, weirDeadline_expires s e ha hg harr, fun _ hr => ?_⟩,
    fun s v hup => ⟨exec_relayDis_up s v hup, setHold v s, exec_hold_up s v hup, ?_⟩⟩
  · rw [exec_relayEligible_awaited s e ha, if_pos ho]
  · rw [exec_relayEligible_awaited s e ha, ho]
    rfl
  · refine ⟨noteLast rankDecision 0xF 0 { s with weir := { s.weir with relayPosted := true } }, ?_, ?_⟩
    · rw [exec_relayChoice_awaited s e ha, if_neg (by simp [hel, hpost, ho])]
    · rw [noteLast_frame]
      exact ⟨rfl, rfl, rfl, rfl⟩
  · rw [exec_relayChoice_awaited s e ha, if_pos (.inl hel)]
  · rw [exec_weirDeadline_awaited s e ha hg harr, if_pos (.inl hh)]
  · rw [exec_weirDeadline_awaited s e ha hg harr, if_pos (.inr hr)]
  · refine ⟨?_, ?_, ?_, ?_, ?withdraws, ?posts, ?_⟩
    case withdraws =>
      rintro rfl
      exact setHold_withdraws s
    case posts =>
      rintro rfl
      exact setHold_posts s
    all_goals rw [setHold_frame]

end Sys2Proof.Machine
end

section
/-! PROOF. Inspection of the engine through the mailbox: READBACK, ATTEST, MIG_STATUS, LOG_READ and BG_RESULT (R166, R178,
R205, R207, R231, R338, R340, R364, R365, R367). -/

namespace Sys2Proof.Machine

/-! ## What the mailbox lets through, and its answers (R338 to R340) -/

theorem mem_allStates (d : DevState) : d ∈ allStates := by cases d <;> decide

/-- A command of every state that also runs beside a background command does its work whenever the link is up. -/
theorem vendor_allStates (op : Nat) (work : State → State) (s : State) (h : mailboxUp s = true) :
    vendor op true allStates work s = .next (work (takeOpcode op s)) :=
  vendor_of op true allStates work s h (.inr rfl) (mem_allStates _)

/-- A command that the mailbox takes does its work. -/
theorem vendor_takes (op : Nat) (ds : List DevState) (work : State → State) (s : State) (h : takesCommand ds s) :
    vendor op false ds work s = .next (work (takeOpcode op s)) := by
  obtain ⟨hup, hbg, hst⟩ := h
  exact vendor_of op false ds work s hup (.inl (bgOpen_of_none s hbg)) hst

theorem replied_takeOpcode (op : Nat) (d : DStatus) (out : Bytes) (s : State) :
    replied d out s (reply d out (takeOpcode op s)) := reply_replied d out (takeOpcode op s)

theorem onlyMailbox_takeOpcode (op : Nat) (d : DStatus) (out : Bytes) (s : State) :
    onlyMailbox s (reply d out (takeOpcode op s)) := rfl

theorem bgBegun_takeOpcode (op : Nat) (ds : List DevState) (b : BgCmd) (s : State) (h : takesCommand ds s) :
    bgBegun b s (started b (takeOpcode op s)) := by
  obtain ⟨-, hbg, -⟩ := h
  exact started_bgBegun b (takeOpcode op s) hbg

/-! ## The end of a READBACK or ATTEST (R337 to R339) -/

/-- It changes the mailbox and the messages raised. -/
theorem finishRead_frame (r : BgResult) (s : State) :
    finishRead r s = { s with mbx := (finishRead r s).mbx, cxl := (finishRead r s).cxl } := by
  unfold finishRead
  split <;> rfl

/-- The command that ends leaves the one it runs beside, and puts its result in place. -/
theorem finishRead_mailbox (r : BgResult) (s : State) :
    (finishRead r s).mbx.bg = (if s.mbx.beside.isSome then s.mbx.bg else none) ∧ (finishRead r s).mbx.beside = none ∧
      (finishRead r s).mbx.bgRes = r ∧
      (finishRead r s).cxl.msix = setAt s.cxl.msix 0 (s.cxl.msix.getD 0 0 + 1) := by
  unfold finishRead
  split
  · exact ⟨rfl, rfl, rfl, rfl⟩
  next h => exact ⟨Option.not_isSome_iff_eq_none.mp h, rfl, rfl, rfl⟩

/-! ## READBACK (R205, R207) -/

theorem exec_readback_taken (s : State) (pl : Bytes)
    (h : takesCommand [.ready, .loadOpen, .resident, .configured, .safe, .lender, .scrubbing, .warmStart, .salvage] s) :
    exec (.readback pl) s =
      .next (if fieldB pl 0 4 = 0 ∨ 256 < fieldB pl 0 4 ∨ zeroB pl 4 4 = false then reply .range [] (takeOpcode 0xC109 s)
        else started (.readback (rangesOf pl)) (takeOpcode 0xC109 s)) := by
  rw [exec_readback]
  exact vendor_takes 0xC109 _ _ s h

/-- The salvage area is stack memory; the granules written hold fresh check bits (R209, R213). -/
theorem writeSalvage_frame (fuel k : Nat) (bs : Bytes) (s : State) :
    writeSalvage fuel k bs s =
      { s with stackMem := (writeSalvage fuel k bs s).stackMem, stackUpsets := (writeSalvage fuel k bs s).stackUpsets } := by
  induction fuel generalizing k bs s with
  | zero => rfl
  | succ fuel ih =>
    unfold writeSalvage
    split
    · rfl
    · exact ih _ _ _

/-- A single range fills the salvage area from its first byte on. -/
theorem writeRecords_single (r : Nat × Nat) (s : State) :
    writeRecords [r] 0 s =
      (writeSalvage ((rangeRecord s s.freeCount salvageSize r).length / 4096 + 2) 0
        (rangeRecord s s.freeCount salvageSize r) s, (rangeRecord s s.freeCount salvageSize r).length) := by
  have hroom : ¬salvageSize < 0 + 32 := by decide
  simp [writeRecords, if_neg hroom]

theorem applyWrites_of_none (s : State) (h : s.tier.writes = []) : applyWrites s = s := by
  simp [applyWrites, h]

/-- The end of a READBACK of one range. -/
theorem exec_readbackDone_single (s : State) (r : Nat × Nat) (h : s.mbx.reading = some (.readback [r]))
    (hw : s.tier.writes = []) :
    let u := settleLoad s
    let b := rangeRecord u u.freeCount salvageSize r
    exec .readbackDone s =
      .next (finishRead { bgDone 0xC109 .ok with value := b.length }
        { writeSalvage (b.length / 4096 + 2) 0 b u with freeCount := u.freeCount + b.length }) := by
  intro u b
  rw [exec_readbackDone, execReadbackDone, h]
  dsimp only
  rw [applyWrites_of_none s hw, writeRecords_single]

/-! ## ATTEST (R364, R365) -/

theorem exec_attest_taken (s : State) (pl : Bytes) (h : takesCommand startedStates s) :
    exec (.attest pl) s = .next (started (.attest (quoteBody (sliceB pl 0 32) s)) (takeOpcode 0xC10A s)) := by
  rw [exec_attest]
  exact vendor_takes 0xC10A _ _ s h

theorem exec_attestDone_reading (s : State) (q : Bytes) (h : s.mbx.reading = some (.attest q)) :
    exec .attestDone s =
      .next (finishRead { bgDone 0xC10A .ok with quote := q ++ Config.slhSign (s.ids.secret.take 48) (sha256 q) }
        (logEvent 0x0702 0 0 0 (sliceB q 0x68 16) s)) := by
  rw [exec_attestDone, execAttestDone, h]

/-! ## MIG_STATUS, LOG_READ and BG_RESULT (R231, R338, R340, R367) -/

theorem exec_migStatus_up (s : State) (pl : Bytes) (h : mailboxUp s = true) :
    let r := listRec s (fieldB pl 0 2)
    exec (.migStatus pl) s =
      .next (reply .ok (toLe 4 (listStCode r.st) ++ toLe 4 r.next ++ toLe 4 r.cause ++ toLe 4 r.unit)
        (takeOpcode 0xC111 s)) :=
  vendor_allStates 0xC111 _ s h

/-- The records that LOG_READ gives, with their number and the log's count, from FIRST or the oldest kept on. -/
def logReadOut (s : State) (pl : Bytes) : Bytes :=
  let log := fieldB pl 0 1
  let first := max (fieldB pl 8 8) (logCount s log - logRing log)
  let n := min (fieldB pl 16 4) (min (logCount s log - first) 2047)
  toLe 8 (logCount s log) ++ toLe 4 n ++ toLe 4 32 ++ (List.range n).flatMap (fun i => logRecord s log (first + i))

theorem exec_logRead_up (s : State) (pl : Bytes) (h : mailboxUp s = true) (hlog : fieldB pl 0 1 ≤ 2)
    (hz : zeroB pl 1 7 = true) : exec (.logRead pl) s = .next (reply .ok (logReadOut s pl) (takeOpcode 0xC118 s)) := by
  have hopen : ¬(2 < fieldB pl 0 1 ∨ zeroB pl 1 7 = false) := by simp [hz, hlog]
  rw [exec_logRead, execLogRead, vendor_allStates 0xC118 _ s h, if_neg hopen]
  rfl

/-- BG_RESULT: the header of the last background command, then its result (R338). -/
theorem exec_bgResult_up (s : State) (h : mailboxUp s = true) :
    let r := s.mbx.bgRes
    exec .bgResult s = .next (putAnswer (returnCode r.dstatus) r.dstatus r.check
      (resultHeader r.dstatus r.check ++ toLe 2 r.opcode ++ toLe 2 r.sect ++ zeros 4 ++ toLe 8 r.offset ++ toLe 2 r.x ++
        toLe 2 r.y ++ zeros 4 ++ toLe 8 r.value ++ r.quote) (takeOpcode 0xC119 s)) :=
  vendor_allStates 0xC119 _ s h

/-- Settles O52: each command by the lemma about its answer. -/
theorem inspectionCommands : Obligations.InspectionCommands := by
  refine fun s pl => ⟨fun ht => ⟨fun hn => ?_, fun h1 hn hz => ?_⟩, ⟨fun a len hr hw => ?_, fun q hr => ?_⟩,
    fun ht => ?_, fun hup => ⟨?_, fun hlog hz => ?_, ?_⟩⟩
  · refine ⟨_, (exec_readback_taken s pl ht).trans (congrArg Host.Outcome.next (if_pos ?_)), replied_takeOpcode _ _ _ s,
      onlyMailbox_takeOpcode _ _ _ s⟩
    exact hn.imp_right .inl
  · refine ⟨_, (exec_readback_taken s pl ht).trans (congrArg Host.Outcome.next (if_neg ?_)), bgBegun_takeOpcode _ _ _ s ht⟩
    simp only [hz, Bool.true_eq_false, or_false]
    omega
  · refine ⟨_, exec_readbackDone_single s (a, len) hr hw, ?_, ?_, ?_, ?_⟩
    · rw [writeSalvage_frame, settleLoad_frame]
      exact finishRead_mailbox _ _
    all_goals rw [finishRead_frame, writeSalvage_frame, settleLoad_frame]
  · refine ⟨_, exec_attestDone_reading s q hr, finishRead_mailbox _ _, ?_, ?_⟩
    all_goals rw [finishRead_frame]; rfl
  · exact ⟨_, exec_attest_taken s pl ht, bgBegun_takeOpcode _ _ _ s ht, rfl⟩
  · exact ⟨_, exec_migStatus_up s pl hup, onlyMailbox_takeOpcode _ _ _ s, replied_takeOpcode _ _ _ s⟩
  · exact ⟨_, exec_logRead_up s pl hup hlog hz, onlyMailbox_takeOpcode _ _ _ s, replied_takeOpcode _ _ _ s⟩
  · exact ⟨_, exec_bgResult_up s hup, rfl, rfl, rfl, rfl, rfl⟩

end Sys2Proof.Machine
end
